-- ==== Sys2Proof/Word.lean ====
section
/-! DEFINITION. The word types of the router: every access moves one byte (R55), addresses of both ports are
16 bits (R50, R51), and an operation is one 28-bit word (R80). -/

namespace Sys2Proof

/-- The data width of every access (R5 `DATA_BITS`). -/
abbrev Byte := BitVec 8

/-- An address of either port (R5 `ADDR_BITS`, `PPU_ADDR_BITS`). -/
abbrev Addr := BitVec 16

/-- The number of a controller port, 0 or 1 (R5 `N_CTRL`). -/
abbrev PortNo := BitVec 1

/-- An operation word (R80). -/
abbrev OpWord := BitVec 28

end Sys2Proof
end

