-- ==== Sys2Proof/Config.lean ====
section
/-! DEFINITION. What the spec leaves to the implementation or to the external agents: the open parameters of R6, the
draws of R36 and R37, and the two agents of R10 and R11. Every one of them is an opaque constant with no body, so
no proof can see its value and a claim proved is true whatever it is. The operations of the machine take them in
one record, `Env`, so that a test can run them beside the idle stubs of 95_test_vectors.md. -/

namespace Sys2Proof

/-- The listed bytes of a byte array: (index, byte) pairs in the canonical form `Memory.wf` of Machine/Ops.lean. -/
abbrev Memory := List Host.Cell

/-- The neighbour state of the Picture Unit (R28, R37): the object memory, its pending non-maskable interrupt
condition, its "frame complete" signal, and the rest of it (registers, pixel buffer, internal memories, outside
the spec by R4) coded as one number. -/
structure PictureUnit where
  oam           : Memory
  nmiPending    : Bool
  frameComplete : Bool
  inner         : Nat
  deriving DecidableEq, Repr, Inhabited

/-- The neighbour state of the Processor (R28, R37): how many assertions of its interrupt line it has not yet taken
note of (R142, R240), and the rest of it (outside the spec by R4) coded as one number. -/
structure Processor where
  nmiAsserts : Nat
  inner      : Nat
  deriving DecidableEq, Repr, Inhabited

/-- What the Picture Unit does inside one call of it (R11, R141, D15): a finite sequence of reads and writes on the
cartridge port, each result known before the next is chosen, looks at `mirror_vertical` (`none` with no Cartridge),
writes of its own object memory, and at the end its new internal state and the call's answer. -/
inductive PpuProg (α : Type) where
  | read   (a : Addr) (k : Byte → PpuProg α)
  | write  (a : Addr) (v : Byte) (k : PpuProg α)
  | mirror (k : Option Bool → PpuProg α)
  | oam    (i v : Byte) (k : PpuProg α)
  | done   (nmi frame : Bool) (inner : Nat) (answer : α)
  deriving Inhabited

/-- What the Picture Unit does inside a call that leaves its object memory alone but for what the call itself stores
(D15: `PpuTakeNmi`, `OamWrite`, `PpuFrameComplete`): as `PpuProg`, with no writes of object memory and no answer of its
own. -/
inductive PortProg where
  | read   (a : Addr) (k : Byte → PortProg)
  | write  (a : Addr) (v : Byte) (k : PortProg)
  | mirror (k : Option Bool → PortProg)
  | done   (nmi frame : Bool) (inner : Nat)
  deriving Inhabited

/-- What the Processor does in one slot (R144, D14): a finite sequence of processor-side reads and writes, each
result known before the next is chosen, and at the end its new state. -/
inductive ProcProg where
  | read  (a : Addr) (k : Byte → ProcProg)
  | write (a : Addr) (v : Byte) (k : ProcProg)
  | done  (p : Processor)
  deriving Inhabited

/-- The parameters of the step relation (R6, R11), in one record. -/
structure Env where
  openBusFill     : Byte
  ctrlFillBit     : Bool
  m0PpuWriteAccept : Bool
  ramInit         : Nat → Byte
  oamInit         : Nat → Byte
  ppuTick         : PictureUnit → PpuProg Unit
  ppuRegRead      : BitVec 3 → PictureUnit → PpuProg Byte
  ppuRegWrite     : BitVec 3 → Byte → PictureUnit → PpuProg Unit
  ppuTakeNmi      : PictureUnit → PortProg
  ppuOamWrite     : Byte → Byte → PictureUnit → PortProg
  ppuFrameComplete : PictureUnit → PortProg
  procStep        : Processor → ProcProg

/-- `OPEN_BUS_FILL`: the byte `OpenBus()` returns (R6, R65, D3, OPEN). -/
opaque Config.openBusFill : Byte

/-- `CTRL_FILL_BIT`: the bit shifted into a controller shift register (R6, R105, D9, OPEN). -/
opaque Config.ctrlFillBit : Bool

/-- `M0_PPU_WRITE_ACCEPT`: whether variant 0 accepts picture-unit writes (R6, R195, D18, OPEN). -/
opaque Config.m0PpuWriteAccept : Bool

/-- `RAM_INIT`: what RAM holds at reset (R36, D32: a draw, not zero). -/
opaque Config.ramInit : Nat → Byte

/-- What the object memory holds at reset (R37: unspecified). -/
opaque Config.oamInit : Nat → Byte

/-- `FRAME_TICKS`: clock steps per video frame (R6, R213, D31, OPEN); no rule reads it. -/
opaque Config.frameTicks : Nat

/-- `PpuTick()`: what the Picture Unit does in one dot (R10, R141, U14). -/
opaque Config.ppuTick : PictureUnit → PpuProg Unit

/-- `PpuRegRead(r)` (R10, R103, U14). -/
opaque Config.ppuRegRead : BitVec 3 → PictureUnit → PpuProg Byte

/-- `PpuRegWrite(r, v)` (R10, R104, U14). -/
opaque Config.ppuRegWrite : BitVec 3 → Byte → PictureUnit → PpuProg Unit

/-- What the Picture Unit does inside `PpuTakeNmi()`, beside having its condition taken (R10, D13, D15). -/
opaque Config.ppuTakeNmi : PictureUnit → PortProg

/-- What the Picture Unit does inside `OamWrite(i, v)`, beside having the byte stored (R10, D15). -/
opaque Config.ppuOamWrite : Byte → Byte → PictureUnit → PortProg

/-- What the Picture Unit does inside `PpuFrameComplete()`, beside answering its signal (R10, R213, D15). -/
opaque Config.ppuFrameComplete : PictureUnit → PortProg

/-- `ProcStep()`: what the Processor does in one slot (R10, R144, U13). -/
opaque Config.procStep : Processor → ProcProg

/-- `dma.page` at reset (R36: unspecified, a draw). -/
opaque Config.resetDmaPage : Byte

/-- `dma.cursor` at reset (R36: unspecified, a draw). -/
opaque Config.resetDmaCursor : Byte

/-- `dma.data` at reset (R36: unspecified, a draw). -/
opaque Config.resetDmaData : Byte

/-- `ctrl[p]` at reset (R36: unspecified, a draw). -/
opaque Config.resetCtrl : PortNo → Byte

/-- `shift[p]` at reset (R36: unspecified, a draw). -/
opaque Config.resetShift : PortNo → Byte

/-- The Picture Unit's pending interrupt condition at reset (R37). -/
opaque Config.resetPpuNmi : Bool

/-- The "frame complete" signal at reset (R37). -/
opaque Config.resetPpuFrame : Bool

/-- The rest of the Picture Unit at reset (R37). -/
opaque Config.resetPpuInner : Nat

/-- The assertions on the Processor's interrupt line at reset (R37). -/
opaque Config.resetProcNmi : Nat

/-- The rest of the Processor at reset (R37). -/
opaque Config.resetProcInner : Nat

/-- The parameters of this machine: the opaque constants above. -/
def Config.env : Env where
  openBusFill := Config.openBusFill
  ctrlFillBit := Config.ctrlFillBit
  m0PpuWriteAccept := Config.m0PpuWriteAccept
  ramInit := Config.ramInit
  oamInit := Config.oamInit
  ppuTick := Config.ppuTick
  ppuRegRead := Config.ppuRegRead
  ppuRegWrite := Config.ppuRegWrite
  ppuTakeNmi := Config.ppuTakeNmi
  ppuOamWrite := Config.ppuOamWrite
  ppuFrameComplete := Config.ppuFrameComplete
  procStep := Config.procStep

end Sys2Proof
end

