-- ==== Sys2Proof/Syntax.lean ====
section
/-! DEFINITION. The operations of the router: one constructor per row of opcode_table.json (R80, R87). The router
executes no instruction set (R1); an operation takes the place of an instruction. A row whose block is one address
carries no address; `RD.CTRL` carries its port bit; the data bits of a read are no operand (R81). -/

namespace Sys2Proof

/-- One operation of the host (R80 to R85). -/
inductive Instr where
  /-- `RD.RAM`, `0x0000–0x1FFF`: read onboard RAM (R101). -/
  | rdRam (a : Addr)
  /-- `RD.PPUREG`, `0x2000–0x3FFF`: read a Picture Unit register (R103). -/
  | rdPpuReg (a : Addr)
  /-- `RD.OPEN_4000`, `0x4000–0x400F`: read an unclaimed address (R109). -/
  | rdOpen4000 (a : Addr)
  /-- `RD.OPEN_4010`, `0x4010–0x4013`: read an unclaimed address (R109). -/
  | rdOpen4010 (a : Addr)
  /-- `RD.OAMDMA`, `0x4014`: read the write-only trigger address (R108). -/
  | rdOamDma
  /-- `RD.OPEN_4015`, `0x4015`: read an unclaimed address (R109). -/
  | rdOpen4015
  /-- `RD.CTRL`, `0x4016–0x4017`: read controller port `p` (R105). -/
  | rdCtrl (p : PortNo)
  /-- `RD.OPEN_4018`, `0x4018–0x401F`: read an unclaimed address (R109). -/
  | rdOpen4018 (a : Addr)
  /-- `RD.CART_4020`, `0x4020–0x403F`: read through the Cartridge's processor port (R111). -/
  | rdCart4020 (a : Addr)
  /-- `RD.CART_4040`, `0x4040–0x407F`: read through the Cartridge's processor port (R111). -/
  | rdCart4040 (a : Addr)
  /-- `RD.CART_4080`, `0x4080–0x40FF`: read through the Cartridge's processor port (R111). -/
  | rdCart4080 (a : Addr)
  /-- `RD.CART_4100`, `0x4100–0x41FF`: read through the Cartridge's processor port (R111). -/
  | rdCart4100 (a : Addr)
  /-- `RD.CART_4200`, `0x4200–0x43FF`: read through the Cartridge's processor port (R111). -/
  | rdCart4200 (a : Addr)
  /-- `RD.CART_4400`, `0x4400–0x47FF`: read through the Cartridge's processor port (R111). -/
  | rdCart4400 (a : Addr)
  /-- `RD.CART_4800`, `0x4800–0x4FFF`: read through the Cartridge's processor port (R111). -/
  | rdCart4800 (a : Addr)
  /-- `RD.CART_5000`, `0x5000–0x5FFF`: read through the Cartridge's processor port (R111). -/
  | rdCart5000 (a : Addr)
  /-- `RD.CART_6000`, `0x6000–0x7FFF`: read through the Cartridge's processor port (R111). -/
  | rdCart6000 (a : Addr)
  /-- `RD.CART_8000`, `0x8000–0xFFFF`: read through the Cartridge's processor port (R111). -/
  | rdCart8000 (a : Addr)
  /-- `WR.RAM`, `0x0000–0x1FFF`: write onboard RAM (R102). -/
  | wrRam (a : Addr) (v : Byte)
  /-- `WR.PPUREG`, `0x2000–0x3FFF`: write a Picture Unit register (R104). -/
  | wrPpuReg (a : Addr) (v : Byte)
  /-- `WR.OPEN_4000`, `0x4000–0x400F`: write an unclaimed address (R110). -/
  | wrOpen4000 (a : Addr) (v : Byte)
  /-- `WR.OPEN_4010`, `0x4010–0x4013`: write an unclaimed address (R110). -/
  | wrOpen4010 (a : Addr) (v : Byte)
  /-- `WR.OAMDMA`, `0x4014`: start a DMA transfer (R107). -/
  | wrOamDma (v : Byte)
  /-- `WR.OPEN_4015`, `0x4015`: write an unclaimed address (R110). -/
  | wrOpen4015 (v : Byte)
  /-- `WR.STROBE`, `0x4016`: write the strobe register (R106). -/
  | wrStrobe (v : Byte)
  /-- `WR.OPEN_4017`, `0x4017`: write an unclaimed address (R110). -/
  | wrOpen4017 (v : Byte)
  /-- `WR.OPEN_4018`, `0x4018–0x401F`: write an unclaimed address (R110). -/
  | wrOpen4018 (a : Addr) (v : Byte)
  /-- `WR.CART_4020`, `0x4020–0x403F`: write through the Cartridge's processor port (R112). -/
  | wrCart4020 (a : Addr) (v : Byte)
  /-- `WR.CART_4040`, `0x4040–0x407F`: write through the Cartridge's processor port (R112). -/
  | wrCart4040 (a : Addr) (v : Byte)
  /-- `WR.CART_4080`, `0x4080–0x40FF`: write through the Cartridge's processor port (R112). -/
  | wrCart4080 (a : Addr) (v : Byte)
  /-- `WR.CART_4100`, `0x4100–0x41FF`: write through the Cartridge's processor port (R112). -/
  | wrCart4100 (a : Addr) (v : Byte)
  /-- `WR.CART_4200`, `0x4200–0x43FF`: write through the Cartridge's processor port (R112). -/
  | wrCart4200 (a : Addr) (v : Byte)
  /-- `WR.CART_4400`, `0x4400–0x47FF`: write through the Cartridge's processor port (R112). -/
  | wrCart4400 (a : Addr) (v : Byte)
  /-- `WR.CART_4800`, `0x4800–0x4FFF`: write through the Cartridge's processor port (R112). -/
  | wrCart4800 (a : Addr) (v : Byte)
  /-- `WR.CART_5000`, `0x5000–0x5FFF`: write through the Cartridge's processor port (R112). -/
  | wrCart5000 (a : Addr) (v : Byte)
  /-- `WR.CART_6000`, `0x6000–0x7FFF`: write through the Cartridge's processor port (R112). -/
  | wrCart6000 (a : Addr) (v : Byte)
  /-- `WR.CART_8000`, `0x8000–0xFFFF`: write through the Cartridge's processor port (R112). -/
  | wrCart8000 (a : Addr) (v : Byte)
  /-- `PRD`: read on the picture-unit-side cartridge port (R176). -/
  | prd (a : Addr)
  /-- `PWR`: write on the picture-unit-side cartridge port (R177). -/
  | pwr (a : Addr) (v : Byte)
  /-- `CLK`: one global clock step (R140). -/
  | clk
  /-- `CTL`: set the live byte of controller port `p` (R211). -/
  | ctl (p : PortNo) (v : Byte)
  /-- `INS`: insert the Cartridge whose header the word carries (R210); the payload travels beside the word (R85). -/
  | ins (pb gb m : Byte) (v : Bool)
  deriving DecidableEq, Repr

end Sys2Proof
end

