-- ==== Sys2Proof/WellFormed.lean ====
section
/-! DEFINITION. When a term of `Instr` is an operation: its address lies in the block its row names (R87). Every
other field fills its type, and every value of it is legal (R32, R211, R85). -/

namespace Sys2Proof

/-- `a` lies in the block `first–last` of R87's table, both ends included. -/
def inBlock (first last : Nat) (a : Addr) : Bool :=
  decide (first ≤ a.toNat) && decide (a.toNat ≤ last)

/-- The check of each operation (R87): the address is in its row's block. -/
def Instr.wf : Instr → Bool
  | .rdRam a => inBlock 0x0000 0x1FFF a
  | .rdPpuReg a => inBlock 0x2000 0x3FFF a
  | .rdOpen4000 a => inBlock 0x4000 0x400F a
  | .rdOpen4010 a => inBlock 0x4010 0x4013 a
  | .rdOamDma => true
  | .rdOpen4015 => true
  | .rdCtrl _ => true
  | .rdOpen4018 a => inBlock 0x4018 0x401F a
  | .rdCart4020 a => inBlock 0x4020 0x403F a
  | .rdCart4040 a => inBlock 0x4040 0x407F a
  | .rdCart4080 a => inBlock 0x4080 0x40FF a
  | .rdCart4100 a => inBlock 0x4100 0x41FF a
  | .rdCart4200 a => inBlock 0x4200 0x43FF a
  | .rdCart4400 a => inBlock 0x4400 0x47FF a
  | .rdCart4800 a => inBlock 0x4800 0x4FFF a
  | .rdCart5000 a => inBlock 0x5000 0x5FFF a
  | .rdCart6000 a => inBlock 0x6000 0x7FFF a
  | .rdCart8000 a => inBlock 0x8000 0xFFFF a
  | .wrRam a _ => inBlock 0x0000 0x1FFF a
  | .wrPpuReg a _ => inBlock 0x2000 0x3FFF a
  | .wrOpen4000 a _ => inBlock 0x4000 0x400F a
  | .wrOpen4010 a _ => inBlock 0x4010 0x4013 a
  | .wrOamDma _ => true
  | .wrOpen4015 _ => true
  | .wrStrobe _ => true
  | .wrOpen4017 _ => true
  | .wrOpen4018 a _ => inBlock 0x4018 0x401F a
  | .wrCart4020 a _ => inBlock 0x4020 0x403F a
  | .wrCart4040 a _ => inBlock 0x4040 0x407F a
  | .wrCart4080 a _ => inBlock 0x4080 0x40FF a
  | .wrCart4100 a _ => inBlock 0x4100 0x41FF a
  | .wrCart4200 a _ => inBlock 0x4200 0x43FF a
  | .wrCart4400 a _ => inBlock 0x4400 0x47FF a
  | .wrCart4800 a _ => inBlock 0x4800 0x4FFF a
  | .wrCart5000 a _ => inBlock 0x5000 0x5FFF a
  | .wrCart6000 a _ => inBlock 0x6000 0x7FFF a
  | .wrCart8000 a _ => inBlock 0x8000 0xFFFF a
  | .prd _ => true
  | .pwr _ _ => true
  | .clk => true
  | .ctl _ _ => true
  | .ins _ _ _ _ => true

end Sys2Proof
end

