-- ==== Sys2Proof/Decode.lean ====
section
/-! DEFINITION. The decoder and the encoder of operation words (R80 to R88). The decoder is the opcode table of R87:
a word selects the row whose mask and match it fits. A word no row fits is rejected by the name of the rule it
breaks (R88). The encoder is R91's: the fields laid out as R81 to R85 place them. -/

namespace Sys2Proof

/-- Bits 23:8, the address of formats CB and PB (R81, R82). -/
def fieldA (x : OpWord) : Addr := x.extractLsb' 8 16

/-- Bits 7:0, the data of formats CB, PB and CTL (R81, R82, R84). -/
def fieldD (x : OpWord) : Byte := x.extractLsb' 0 8

/-- Bit 8, the controller port of `RD.CTRL` and `CTL` (R84, R105). -/
def fieldP (x : OpWord) : PortNo := x.extractLsb' 8 1

/-- Bits 24:17, `program_bank_count` (R85). -/
def fieldPb (x : OpWord) : Byte := x.extractLsb' 17 8

/-- Bits 16:9, `graphics_bank_count` (R85). -/
def fieldGb (x : OpWord) : Byte := x.extractLsb' 9 8

/-- Bits 8:1, `mapper_id` (R85). -/
def fieldM (x : OpWord) : Byte := x.extractLsb' 1 8

/-- Bit 0, `mirror_vertical` (R85). -/
def fieldV (x : OpWord) : Bool := x.getLsbD 0

/-- Bits 27:25, the class that selects the format (R80). -/
def fieldK (x : OpWord) : BitVec 3 := x.extractLsb' 25 3

/-- One row of the opcode table (R87): the row is selected by the words `x` with `x & mask = match`. -/
structure Row where
  mask  : OpWord
  pat   : OpWord
  build : OpWord → Instr

/-- The row's test (R87). -/
def Row.fits (r : Row) (x : OpWord) : Bool := x &&& r.mask == r.pat

/-- A row of format CB (R87): mask `0xF000000 | (amask << 8)`, match `(w << 24) | (abase << 8)`. -/
def busRow (w : BitVec 1) (abase amask : Addr) (build : OpWord → Instr) : Row where
  mask := (0xF#4 ++ amask) ++ 0#8
  pat := ((0#3 ++ w) ++ abase) ++ 0#8
  build := build

/-- The reads below the cartridge window (R87). -/
def rowsRead : List Row := [
   busRow 0 0x0000 0xE000 (fun x => .rdRam (fieldA x)),
   busRow 0 0x2000 0xE000 (fun x => .rdPpuReg (fieldA x)),
   busRow 0 0x4000 0xFFF0 (fun x => .rdOpen4000 (fieldA x)),
   busRow 0 0x4010 0xFFFC (fun x => .rdOpen4010 (fieldA x)),
   busRow 0 0x4014 0xFFFF (fun _ => .rdOamDma),
   busRow 0 0x4015 0xFFFF (fun _ => .rdOpen4015),
   busRow 0 0x4016 0xFFFE (fun x => .rdCtrl (fieldP x)),
   busRow 0 0x4018 0xFFF8 (fun x => .rdOpen4018 (fieldA x))]

/-- The reads of the cartridge window (R87). -/
def rowsReadCart : List Row := [
   busRow 0 0x4020 0xFFE0 (fun x => .rdCart4020 (fieldA x)),
   busRow 0 0x4040 0xFFC0 (fun x => .rdCart4040 (fieldA x)),
   busRow 0 0x4080 0xFF80 (fun x => .rdCart4080 (fieldA x)),
   busRow 0 0x4100 0xFF00 (fun x => .rdCart4100 (fieldA x)),
   busRow 0 0x4200 0xFE00 (fun x => .rdCart4200 (fieldA x)),
   busRow 0 0x4400 0xFC00 (fun x => .rdCart4400 (fieldA x)),
   busRow 0 0x4800 0xF800 (fun x => .rdCart4800 (fieldA x)),
   busRow 0 0x5000 0xF000 (fun x => .rdCart5000 (fieldA x)),
   busRow 0 0x6000 0xE000 (fun x => .rdCart6000 (fieldA x)),
   busRow 0 0x8000 0x8000 (fun x => .rdCart8000 (fieldA x))]

/-- The writes below the cartridge window (R87). -/
def rowsWrite : List Row := [
   busRow 1 0x0000 0xE000 (fun x => .wrRam (fieldA x) (fieldD x)),
   busRow 1 0x2000 0xE000 (fun x => .wrPpuReg (fieldA x) (fieldD x)),
   busRow 1 0x4000 0xFFF0 (fun x => .wrOpen4000 (fieldA x) (fieldD x)),
   busRow 1 0x4010 0xFFFC (fun x => .wrOpen4010 (fieldA x) (fieldD x)),
   busRow 1 0x4014 0xFFFF (fun x => .wrOamDma (fieldD x)),
   busRow 1 0x4015 0xFFFF (fun x => .wrOpen4015 (fieldD x)),
   busRow 1 0x4016 0xFFFF (fun x => .wrStrobe (fieldD x)),
   busRow 1 0x4017 0xFFFF (fun x => .wrOpen4017 (fieldD x)),
   busRow 1 0x4018 0xFFF8 (fun x => .wrOpen4018 (fieldA x) (fieldD x))]

/-- The writes of the cartridge window (R87). -/
def rowsWriteCart : List Row := [
   busRow 1 0x4020 0xFFE0 (fun x => .wrCart4020 (fieldA x) (fieldD x)),
   busRow 1 0x4040 0xFFC0 (fun x => .wrCart4040 (fieldA x) (fieldD x)),
   busRow 1 0x4080 0xFF80 (fun x => .wrCart4080 (fieldA x) (fieldD x)),
   busRow 1 0x4100 0xFF00 (fun x => .wrCart4100 (fieldA x) (fieldD x)),
   busRow 1 0x4200 0xFE00 (fun x => .wrCart4200 (fieldA x) (fieldD x)),
   busRow 1 0x4400 0xFC00 (fun x => .wrCart4400 (fieldA x) (fieldD x)),
   busRow 1 0x4800 0xF800 (fun x => .wrCart4800 (fieldA x) (fieldD x)),
   busRow 1 0x5000 0xF000 (fun x => .wrCart5000 (fieldA x) (fieldD x)),
   busRow 1 0x6000 0xE000 (fun x => .wrCart6000 (fieldA x) (fieldD x)),
   busRow 1 0x8000 0x8000 (fun x => .wrCart8000 (fieldA x) (fieldD x))]

/-- The rows of formats PB, CLK, CTL and INS (R87, "the other five rows"). -/
def rowsOther : List Row := [
   Row.mk 0xF000000 0x2000000 (fun x => .prd (fieldA x)),
   Row.mk 0xF000000 0x3000000 (fun x => .pwr (fieldA x) (fieldD x)),
   Row.mk 0xFFFFFFF 0x4000000 (fun _ => .clk),
   Row.mk 0xFFFFE00 0x6000000 (fun x => .ctl (fieldP x) (fieldD x)),
   Row.mk 0xE000000 0x8000000 (fun x => .ins (fieldPb x) (fieldGb x) (fieldM x) (fieldV x))]

/-- The opcode table, in the order of opcode_table.json (R87). -/
def opcodeTable : List Row :=
  rowsRead ++ rowsReadCart ++ rowsWrite ++ rowsWriteCart ++ rowsOther

/-- Why a word is no operation. -/
inductive DecodeReject where
  /-- Class `101`, `110` or `111` (R88). Safe: the spec gives the word no meaning. -/
  | reservedClass (k : BitVec 3)
  /-- Class `010` with any of bits 24:0 set (R88). Safe: the spec gives the word no meaning. -/
  | clkReservedBits
  /-- Class `011` with any of bits 24:9 set (R88). Safe: the spec gives the word no meaning. -/
  | ctlReservedBits
  /-- More than 28 bits (R80, R64): the call is outside the contract. Safe: the spec gives it no meaning. -/
  | tooWide
  deriving DecidableEq, Repr

/-- The rule a word that fits no row breaks (R88). -/
def rejectOf (x : OpWord) : DecodeReject :=
  if fieldK x = 2 then .clkReservedBits
  else if fieldK x = 3 then .ctlReservedBits
  else .reservedClass (fieldK x)

/-- Decode one operation word (R87, R88). -/
def decode (x : OpWord) : Except DecodeReject Instr :=
  match opcodeTable.find? (fun r => r.fits x) with
  | some r => .ok (r.build x)
  | none => .error (rejectOf x)

/-- Decode what the host presents, of any size (R80, R64, R233): a word has 28 bits. -/
def decodeWord (n : Nat) : Except DecodeReject Instr :=
  if n < 2 ^ 28 then decode (BitVec.ofNat 28 n) else .error .tooWide

/-- Formats CB and PB (R81, R82): class, write bit, address, data. -/
def wordBus (k : BitVec 3) (w : BitVec 1) (a : Addr) (d : Byte) : OpWord :=
  ((k ++ w) ++ a) ++ d

/-- Format CTL (R84): class `011`, sixteen zeros, port, byte. -/
def wordCtl (p : PortNo) (v : Byte) : OpWord :=
  ((3#3 ++ 0#16) ++ p) ++ v

/-- Format INS (R85): class `100`, the two bank counts, the mapper identifier, the mirroring flag. -/
def wordIns (pb gb m : Byte) (v : Bool) : OpWord :=
  (((4#3 ++ pb) ++ gb) ++ m) ++ BitVec.ofBool v

/-- The word of an operation (R81 to R85, R91); a read is written with zero data bits. -/
def encode : Instr → OpWord
  | .rdRam a => wordBus 0 0 a 0
  | .rdPpuReg a => wordBus 0 0 a 0
  | .rdOpen4000 a => wordBus 0 0 a 0
  | .rdOpen4010 a => wordBus 0 0 a 0
  | .rdOamDma => wordBus 0 0 0x4014 0
  | .rdOpen4015 => wordBus 0 0 0x4015 0
  | .rdCtrl p => wordBus 0 0 ((0x200B#15 : BitVec 15) ++ p) 0
  | .rdOpen4018 a => wordBus 0 0 a 0
  | .rdCart4020 a => wordBus 0 0 a 0
  | .rdCart4040 a => wordBus 0 0 a 0
  | .rdCart4080 a => wordBus 0 0 a 0
  | .rdCart4100 a => wordBus 0 0 a 0
  | .rdCart4200 a => wordBus 0 0 a 0
  | .rdCart4400 a => wordBus 0 0 a 0
  | .rdCart4800 a => wordBus 0 0 a 0
  | .rdCart5000 a => wordBus 0 0 a 0
  | .rdCart6000 a => wordBus 0 0 a 0
  | .rdCart8000 a => wordBus 0 0 a 0
  | .wrRam a v => wordBus 0 1 a v
  | .wrPpuReg a v => wordBus 0 1 a v
  | .wrOpen4000 a v => wordBus 0 1 a v
  | .wrOpen4010 a v => wordBus 0 1 a v
  | .wrOamDma v => wordBus 0 1 0x4014 v
  | .wrOpen4015 v => wordBus 0 1 0x4015 v
  | .wrStrobe v => wordBus 0 1 0x4016 v
  | .wrOpen4017 v => wordBus 0 1 0x4017 v
  | .wrOpen4018 a v => wordBus 0 1 a v
  | .wrCart4020 a v => wordBus 0 1 a v
  | .wrCart4040 a v => wordBus 0 1 a v
  | .wrCart4080 a v => wordBus 0 1 a v
  | .wrCart4100 a v => wordBus 0 1 a v
  | .wrCart4200 a v => wordBus 0 1 a v
  | .wrCart4400 a v => wordBus 0 1 a v
  | .wrCart4800 a v => wordBus 0 1 a v
  | .wrCart5000 a v => wordBus 0 1 a v
  | .wrCart6000 a v => wordBus 0 1 a v
  | .wrCart8000 a v => wordBus 0 1 a v
  | .prd a => wordBus 1 0 a 0
  | .pwr a v => wordBus 1 1 a v
  | .clk => 0x4000000
  | .ctl p v => wordCtl p v
  | .ins pb gb m v => wordIns pb gb m v

/-- The words of `CLK n` (R91). -/
def pseudoClk (n : Nat) : List OpWord := List.replicate n (encode .clk)

/-- The words of `SLOT` (R91): one full processor slot period. -/
def pseudoSlot : List OpWord := pseudoClk 3

/-- The words of `STROBE` (R91). -/
def pseudoStrobe : List OpWord := [encode (.wrStrobe 1), encode (.wrStrobe 0)]

/-- The words of `OAMDMA P` (R91). -/
def pseudoOamDma (page : Byte) : List OpWord := [encode (.wrOamDma page)]

/-- The operation the decoder reads from a row of opcode_table.json whose bits are `w`, bit 0 the least significant;
every bit above `nbits` is 0. -/
def decodeTableWord (nbits w : Nat) : Option Instr :=
  match decodeWord (w % 2 ^ nbits) with
  | .ok i => some i
  | .error _ => none

end Sys2Proof
end

