-- ==== Sys2Proof/Machine/State.lean ====
section
/-! DEFINITION. The state of the machine: the router's own elements (R20 to R27), the neighbour state its rules touch
(R28), and the host boundary (what the host has issued, what it was answered). All of it is plain data. -/

namespace Sys2Proof.Machine

/-- A byte sequence of `size` bytes (the `prg_bytes` and `chr_bytes` of R85, `c.prg` and `c.chr` of R26), written by
its nonzero bytes: `cells` lists (offset, byte) in the canonical form `Image.wf`. The zero of an unlisted offset is
how a sequence is written down, not a value of the hardware: every byte sequence is exactly one image. -/
structure Image where
  size  : Nat
  cells : Memory
  deriving DecidableEq, Repr, Inhabited

/-- The header of a parsed cartridge (R85, R170). -/
structure Header where
  prgBanks       : Byte
  chrBanks       : Byte
  mapperId       : Byte
  mirrorVertical : Bool
  deriving DecidableEq, Repr, Inhabited

/-- A Mapper variant with its state (R27). Variant 0 holds the two bank counts it was given (R196); other variants
are outside the spec (R4, R199). -/
inductive Mapper where
  | mapper0 (prgBanks chrBanks : Byte)
  deriving DecidableEq, Repr

/-- The entries of the id-to-variant table (R191). -/
inductive MapperVariant where
  | mapper0
  deriving DecidableEq, Repr

/-- An inserted Cartridge (R26). -/
structure Cartridge where
  header : Header
  prg    : Image
  chr    : Image
  mapper : Mapper
  deriving DecidableEq, Repr

/-- The DMA transfer state (R23). `phase` is false when the next transfer sub-step reads, true when it writes. -/
structure Dma where
  page   : Byte
  cursor : Byte
  data   : Byte
  active : Bool
  dummy  : Bool
  phase  : Bool
  deriving DecidableEq, Repr

/-- One byte per controller port: `ctrl[0..1]` or `shift[0..1]` (R24). -/
structure PortBytes where
  port0 : Byte
  port1 : Byte
  deriving DecidableEq, Repr

/-- What travels beside the word of `INS` (R85): the loader's verdict and the two byte sequences. -/
structure Payload where
  loaderOk : Bool
  prg      : Image
  chr      : Image
  deriving DecidableEq, Repr, Inhabited

/-- One thing the host has asked for: an operation, by its word and the payload beside it (read by `INS` only); or the
Picture Unit's "frame complete" signal, which has no operation word (R10, R213). -/
inductive HostOp where
  | word (w : Nat) (payload : Payload)
  | frameComplete
  deriving DecidableEq, Repr, Inhabited

/-- The conditions `INS` raises, with the information recorded (R230). -/
inductive Condition where
  /-- `E_CART_INVALID` (R231): the header. -/
  | cartInvalid (h : Header)
  /-- `E_MAPPER_UNSUPPORTED` (R232): the mapper identifier. -/
  | mapperUnsupported (m : Byte)
  deriving DecidableEq, Repr

/-- What the last operation gave back to the host (R12). -/
inductive Reply where
  /-- No operation has been performed since reset. -/
  | idle
  /-- The operation completed and returns nothing. -/
  | done
  /-- A read completed and returns a byte (R81). -/
  | value (b : Byte)
  /-- The Picture Unit's "frame complete" signal, answered (R213). -/
  | signal (b : Bool)
  /-- The operation raised a condition and changed nothing (R230, R236). -/
  | raised (c : Condition)
  deriving DecidableEq, Repr

/-- The machine: the router's state (R20), the neighbour state its rules touch (R28), and the host boundary. -/
structure State where
  ram     : Memory
  tick    : Nat
  dma     : Dma
  ctrl    : PortBytes
  shift   : PortBytes
  strobe  : Bool
  cart    : Option Cartridge
  ppu     : PictureUnit
  proc    : Processor
  pending : List HostOp
  payload : Payload
  reply   : Reply
  deriving DecidableEq, Repr

/-- The reasons the machine stops with a fault: there are none. "the hot path (read/write/clock) never fails" (R235),
and the conditions of `INS` change nothing and let the router go on (R240), so they are replies. -/
inductive Fault where
  deriving DecidableEq, Repr

/-- Why a step has no meaning. -/
inductive Refusal where
  /-- Raised by `exec` for an operation whose meaning is not written yet; no arm does. Safe: nothing is claimed of it. -/
  | notModelled (mnemonic : String)
  /-- `E_ADDR_CONTRACT` (R233): raised by `step` for what is no operation word (R88). Safe: the spec gives such a call
  no meaning, "it is not a step of the machine". -/
  | addrContract (why : DecodeReject)
  deriving DecidableEq, Repr

/-- The state right after power-on (R36, R37, R260). What the spec leaves unspecified is a free constant of Config
("a draw"; "it must not pick zero"). The host has issued nothing and been answered nothing. -/
def State.reset : State where
  ram := []
  tick := 0
  dma := { page := Config.resetDmaPage, cursor := Config.resetDmaCursor, data := Config.resetDmaData,
           active := false, dummy := false, phase := false }
  ctrl := { port0 := Config.resetCtrl 0, port1 := Config.resetCtrl 1 }
  shift := { port0 := Config.resetShift 0, port1 := Config.resetShift 1 }
  strobe := false
  cart := none
  ppu := { oam := [], nmiPending := Config.resetPpuNmi, frameComplete := Config.resetPpuFrame,
           inner := Config.resetPpuInner }
  proc := { nmiAsserts := Config.resetProcNmi, inner := Config.resetProcInner }
  pending := []
  payload := { loaderOk := false, prg := { size := 0, cells := [] }, chr := { size := 0, cells := [] } }
  reply := .idle

/-- Write `ram`, nothing else. -/
def State.setRam (s : State) (x : Memory) : State := { s with ram := x }

/-- Write `tick`, nothing else. -/
def State.setTick (s : State) (x : Nat) : State := { s with tick := x }

/-- Write `dma`, nothing else. -/
def State.setDma (s : State) (x : Dma) : State := { s with dma := x }

/-- Write `ctrl`, nothing else. -/
def State.setCtrl (s : State) (x : PortBytes) : State := { s with ctrl := x }

/-- Write `shift`, nothing else. -/
def State.setShift (s : State) (x : PortBytes) : State := { s with shift := x }

/-- Write `strobe`, nothing else. -/
def State.setStrobe (s : State) (x : Bool) : State := { s with strobe := x }

/-- Write `cart`, nothing else. -/
def State.setCart (s : State) (x : Option Cartridge) : State := { s with cart := x }

/-- Write `ppu`, nothing else. -/
def State.setPpu (s : State) (x : PictureUnit) : State := { s with ppu := x }

/-- Write `proc`, nothing else. -/
def State.setProc (s : State) (x : Processor) : State := { s with proc := x }

/-- Write `pending`, nothing else. -/
def State.setPending (s : State) (x : List HostOp) : State := { s with pending := x }

/-- Write `payload`, nothing else. -/
def State.setPayload (s : State) (x : Payload) : State := { s with payload := x }

/-- Write `reply`, nothing else. -/
def State.setReply (s : State) (x : Reply) : State := { s with reply := x }

end Sys2Proof.Machine
end

