-- ==== Sys2Proof/Machine/Operands.lean ====
section
/-! DEFINITION. How each operand is formed from an address or a byte (R86). Every field is unsigned and every
reduction is a bitwise mask. -/

namespace Sys2Proof.Machine

/-- The RAM index, `a & 0x07FF` (R86, R101). -/
def ramIndex (a : Addr) : Nat := (a &&& 0x07FF#16).toNat

/-- The Picture Unit register number, `a & 0x0007` (R86, R103). -/
def ppuRegOf (a : Addr) : BitVec 3 := (a &&& 0x0007#16).setWidth 3

/-- The controller port, `a & 0x0001` (R86, R105). -/
def portOf (a : Addr) : PortNo := (a &&& 0x0001#16).setWidth 1

/-- The strobe value, bit 0 of the data of a write to `0x4016` (R86, R106). -/
def strobeOf (v : Byte) : Bool := v.getLsbD 0

/-- The DMA read address, `(dma.page << 8) | dma.cursor` (R53, R86, R146). -/
def dmaAddr (page cursor : Byte) : Addr := (page.setWidth 16 <<< 8) ||| cursor.setWidth 16

/-- The cursor increment, modulo 256, with no carry into the page (R86, R147). -/
def cursorNext (cursor : Byte) : Byte := cursor + 1

/-- The program offset of variant 0: `a & 0x3FFF` for one bank, `a & 0x7FFF` for two or more (R86, R192). -/
def prgOffset (prgBanks : Byte) (a : Addr) : Nat :=
  if prgBanks = 1 then (a &&& 0x3FFF#16).toNat else (a &&& 0x7FFF#16).toNat

/-- The graphics offset of variant 0, `a & 0x1FFF` (R86, R194). -/
def chrOffset (a : Addr) : Nat := (a &&& 0x1FFF#16).toNat

/-- The program storage length (R86, R170; `PRG_BANK` of R5). -/
def prgLength (prgBanks : Byte) : Nat := prgBanks.toNat * 16384

/-- The graphics storage length (R86, R170; `CHR_BANK` of R5). -/
def chrLength (chrBanks : Byte) : Nat := chrBanks.toNat * 8192

/-- Whether the clock step that starts with this tick has a processor slot (R86, R143; `CPU_DIV` of R5). -/
def slotAt (tick : Nat) : Bool := tick % 3 == 0

/-- One shift of a controller shift register: left by one, the fill bit entering at the right (R86, R105). -/
def shiftIn (b : Byte) (fill : Bool) : Byte := (b <<< 1) ||| (BitVec.ofBool fill).setWidth 8

/-- The byte a controller read returns: bit 7 of the register in bit 0, zeros above (R105). -/
def topBit (b : Byte) : Byte := (b.extractLsb' 7 1).setWidth 8

/-- The byte of port `p` (R24). -/
def PortBytes.get (x : PortBytes) (p : PortNo) : Byte := if p = 0 then x.port0 else x.port1

/-- Replace the byte of port `p` (R24). -/
def PortBytes.set (x : PortBytes) (p : PortNo) (v : Byte) : PortBytes :=
  if p = 0 then { x with port0 := v } else { x with port1 := v }

end Sys2Proof.Machine
end

