-- ==== Sys2Proof/Machine/Flags.lean ====
section
/-! DEFINITION. What sets and clears the flags of R31 (`dma.active`, `dma.dummy`, `dma.phase`, `strobe`), each with
the fields written beside it. There are no arithmetic condition codes (R31). -/

namespace Sys2Proof.Machine

/-- The trigger: page loaded, cursor 0, active, dummy, phase 0, staging byte kept (R107). -/
def Dma.trigger (d : Dma) (v : Byte) : Dma :=
  { d with page := v, cursor := 0, active := true, dummy := true, phase := false }

/-- The dummy sub-step clears `dummy` and nothing else (R145). -/
def Dma.endDummy (d : Dma) : Dma := { d with dummy := false }

/-- The read sub-step stages a byte and turns to the write (R146). -/
def Dma.stage (d : Dma) (b : Byte) : Dma := { d with data := b, phase := true }

/-- The write sub-step advances the cursor, turns to the read, and ends the transfer when the cursor wraps (R147). -/
def Dma.advance (d : Dma) : Dma :=
  { d with cursor := cursorNext d.cursor, phase := false,
           active := if cursorNext d.cursor = 0 then false else d.active }

/-- A write to `0x4016` latches both ports and sets strobe mode to bit 0 of the data (R106). -/
def strobeWrite (v : Byte) (s : State) : State :=
  (s.setShift s.ctrl).setStrobe (strobeOf v)

end Sys2Proof.Machine
end

