-- ==== Sys2Proof/Machine/Ops.lean ====
section
/-! DEFINITION. The shared operations: byte arrays, the Mapper's translations, the Cartridge's four access paths, the
external agents' calls, the processor-side decode of R100, the DMA sub-step, the raising of a condition, and the
fetch of the host's next operation. Each takes the parameters `E` it reads; the meanings apply them to
`Config.env`. -/

namespace Sys2Proof.Machine

/-! ### Byte arrays -/

/-- The byte at index `a`: the listed one, or what an unlisted index holds. -/
def Memory.read (init : Nat → Byte) : Memory → Nat → Byte
  | [], a => init a
  | c :: m, a => if c.1 = a then c.2 else Memory.read init m a

/-- List `v` at index `a`, keeping the order. -/
def Memory.insert : Memory → Nat → Byte → Memory
  | [], a, v => [(a, v)]
  | c :: m, a, v =>
    if a < c.1 then (a, v) :: c :: m
    else if a = c.1 then (a, v) :: m
    else c :: Memory.insert m a v

/-- Unlist index `a`. -/
def Memory.erase : Memory → Nat → Memory
  | [], _ => []
  | c :: m, a => if c.1 = a then Memory.erase m a else c :: Memory.erase m a

/-- Write one byte, keeping the canonical form: writing what an unlisted index holds unlists it. -/
def Memory.write (init : Nat → Byte) (m : Memory) (a : Nat) (v : Byte) : Memory :=
  if v = init a then Memory.erase m a else Memory.insert m a v

/-- Every index is at least `lo` and the indices rise strictly. -/
def Memory.rising : Nat → Memory → Bool
  | _, [] => true
  | lo, c :: m => decide (lo ≤ c.1) && Memory.rising (c.1 + 1) m

/-- No cell holds what its index holds unlisted, and every index is below `size`. -/
def Memory.proper (init : Nat → Byte) (size : Nat) : Memory → Bool
  | [] => true
  | c :: m => decide (c.2 ≠ init c.1) && decide (c.1 < size) && Memory.proper init size m

/-- The canonical form of a byte array of `size` bytes: indices strictly rising and below `size`, no entry equal to
what an unlisted index holds. -/
def Memory.wf (init : Nat → Byte) (size : Nat) (m : Memory) : Bool :=
  Memory.rising 0 m && Memory.proper init size m

/-- What an unlisted offset of an image stands for. -/
def imageInit : Nat → Byte := fun _ => 0

/-- The canonical form of an image. -/
def Image.wf (i : Image) : Bool := Memory.wf imageInit i.size i.cells

/-- The byte at an offset; none at or beyond the length (R178). -/
def Image.read (i : Image) (off : Nat) : Option Byte :=
  if off < i.size then some (Memory.read imageInit i.cells off) else none

/-- Write the byte at an offset; discarded at or beyond the length (R178). -/
def Image.write (i : Image) (off : Nat) (v : Byte) : Image :=
  if off < i.size then { i with cells := Memory.write imageInit i.cells off v } else i

/-- List the bytes of a sequence from offset `at` on. -/
def imageCells : Nat → List Byte → Memory
  | _, [] => []
  | off, b :: bs => if b = 0 then imageCells (off + 1) bs else (off, b) :: imageCells (off + 1) bs

/-- The image of a byte sequence (R52: offset i is the i-th byte supplied). -/
def Image.ofBytes (bs : List Byte) : Image := { size := bs.length, cells := imageCells 0 bs }

/-! ### Open bus -/

/-- `OpenBus()` (R65). -/
def openBus (E : Env) : Byte := E.openBusFill

/-! ### The Mapper (R190 to R199) -/

/-- `MAPPER_TABLE`, the single explicit id-to-variant table (R191). -/
def mapperTable (m : Byte) : Option MapperVariant := if m = 0 then some .mapper0 else none

/-- A variant is constructed from the two bank counts (R190, R170). -/
def MapperVariant.construct (v : MapperVariant) (prgBanks chrBanks : Byte) : Mapper :=
  match v with
  | .mapper0 => .mapper0 prgBanks chrBanks

/-- `MapCpuRead(a)` (R192). -/
def Mapper.cpuRead (m : Mapper) (a : Addr) : Option Nat :=
  match m with
  | .mapper0 prgBanks _ => some (prgOffset prgBanks a)

/-- `MapCpuWrite(a)`: variant 0 always reports "not writable" (R193). -/
def Mapper.cpuWrite (m : Mapper) (_a : Addr) : Option Nat :=
  match m with
  | .mapper0 _ _ => none

/-- `MapPpuRead(a)` (R194). -/
def Mapper.ppuRead (m : Mapper) (a : Addr) : Option Nat :=
  match m with
  | .mapper0 _ _ => some (chrOffset a)

/-- `MapPpuWrite(a)`: the open parameter decides (R195). -/
def Mapper.ppuWrite (E : Env) (m : Mapper) (a : Addr) : Option Nat :=
  match m with
  | .mapper0 _ _ => if E.m0PpuWriteAccept then some (chrOffset a) else none

/-! ### The Cartridge (R170 to R181) -/

/-- Read storage at a translated offset: open bus where there is no translation or no such byte (R172, R174, R178). -/
def storageRead (E : Env) (i : Image) (off : Option Nat) : Byte :=
  match off with
  | some off => (i.read off).getD (openBus E)
  | none => openBus E

/-- Write storage at a translated offset: discarded where there is no translation or no such byte (R173, R175, R178). -/
def storageWrite (i : Image) (off : Option Nat) (v : Byte) : Image :=
  match off with
  | some off => i.write off v
  | none => i

/-- `CartCpuRead(a)` (R172). -/
def cartCpuRead (E : Env) (c : Cartridge) (a : Addr) : Byte := storageRead E c.prg (c.mapper.cpuRead a)

/-- `CartCpuWrite(a, v)` (R173). -/
def cartCpuWrite (c : Cartridge) (a : Addr) (v : Byte) : Cartridge :=
  { c with prg := storageWrite c.prg (c.mapper.cpuWrite a) v }

/-- `CartPpuRead(a)` (R174). -/
def cartPpuRead (E : Env) (c : Cartridge) (a : Addr) : Byte := storageRead E c.chr (c.mapper.ppuRead a)

/-- `CartPpuWrite(a, v)` (R175). -/
def cartPpuWrite (E : Env) (c : Cartridge) (a : Addr) (v : Byte) : Cartridge :=
  { c with chr := storageWrite c.chr (c.mapper.ppuWrite E a) v }

/-- The slot's processor port: open bus with no Cartridge (R111). -/
def slotCpuRead (E : Env) (cart : Option Cartridge) (a : Addr) : Byte :=
  match cart with
  | none => openBus E
  | some c => cartCpuRead E c a

/-- The slot's processor port: discarded with no Cartridge (R112). -/
def slotCpuWrite (cart : Option Cartridge) (a : Addr) (v : Byte) : Option Cartridge :=
  match cart with
  | none => none
  | some c => some (cartCpuWrite c a v)

/-- The slot's picture-unit port: open bus with no Cartridge (R176). -/
def slotPpuRead (E : Env) (cart : Option Cartridge) (a : Addr) : Byte :=
  match cart with
  | none => openBus E
  | some c => cartPpuRead E c a

/-- The slot's picture-unit port: discarded with no Cartridge (R177). -/
def slotPpuWrite (E : Env) (cart : Option Cartridge) (a : Addr) (v : Byte) : Option Cartridge :=
  match cart with
  | none => none
  | some c => some (cartPpuWrite E c a v)

/-- `CartNew(h, prg_bytes, chr_bytes)` (R170, R38). -/
def cartNew (h : Header) (v : MapperVariant) (prg chr : Image) : Cartridge :=
  { header := h, prg := prg, chr := chr, mapper := v.construct h.prgBanks h.chrBanks }

/-- The checks of a cartridge image, in their order; the first that fails names the condition (R171). -/
def checkImage (h : Header) (p : Payload) : Except Condition MapperVariant :=
  if p.loaderOk = false then .error (.cartInvalid h)
  else if h.prgBanks = 0 then .error (.cartInvalid h)
  else if p.prg.size ≠ prgLength h.prgBanks ∨ p.chr.size ≠ chrLength h.chrBanks then .error (.cartInvalid h)
  else match mapperTable h.mapperId with
    | none => .error (.mapperUnsupported h.mapperId)
    | some v => .ok v

/-! ### The external agents (R10, R11) -/

/-- Store one byte of the object memory, nothing else. -/
def oamStore (E : Env) (i v : Byte) (u : PictureUnit) : PictureUnit :=
  { u with oam := Memory.write E.oamInit u.oam i.toNat v }

/-- What a call of the Picture Unit does: its transactions reach the cartridge slot through the picture-unit port
(R141), and everything else it changes is its own. Answers the call's answer, the slot and the Picture Unit. -/
def runPpu {α : Type} (E : Env) : PpuProg α → Option Cartridge → PictureUnit → α × Option Cartridge × PictureUnit
  | .read a k, cart, u => runPpu E (k (slotPpuRead E cart a)) cart u
  | .write a v k, cart, u => runPpu E k (slotPpuWrite E cart a v) u
  | .mirror k, cart, u => runPpu E (k (cart.map (fun c => c.header.mirrorVertical))) cart u
  | .oam i v k, cart, u => runPpu E k cart (oamStore E i v u)
  | .done nmi frame inner answer, cart, u =>
    (answer, cart, { u with nmiPending := nmi, frameComplete := frame, inner := inner })

/-- A call of the Picture Unit as it acts on the machine: the slot and the Picture Unit, nothing else (R11, R141). -/
def ppuCall {α : Type} (E : Env) (p : PpuProg α) (s : State) : α × State :=
  let r := runPpu E p s.cart s.ppu
  (r.1, (s.setCart r.2.1).setPpu r.2.2)

/-- A call with no writes of object memory, as a call. -/
def asCall : PortProg → PpuProg Unit
  | .read a k => .read a (fun b => asCall (k b))
  | .write a v k => .write a v (asCall k)
  | .mirror k => .mirror (fun m => asCall (k m))
  | .done nmi frame inner => .done nmi frame inner ()

/-- Such a call as it acts on the machine (D15). -/
def portCall (E : Env) (p : PortProg) (s : State) : State := (ppuCall E (asCall p) s).2

/-- `PpuTakeNmi()`: test the pending condition and take it, so that one condition is reported once (R10, R142, D13). The
Picture Unit may make transactions inside it (D15). -/
def ppuTakeNmi (E : Env) (s : State) : Bool × State :=
  let t := portCall E (E.ppuTakeNmi s.ppu) s
  (s.ppu.nmiPending, t.setPpu { t.ppu with nmiPending := false })

/-- `OamWrite(i, v)`: one byte of object memory (R10). The Picture Unit may make transactions inside it (D15). -/
def oamWrite (E : Env) (i v : Byte) (s : State) : State :=
  let t := portCall E (E.ppuOamWrite i v s.ppu) s
  t.setPpu (oamStore E i v t.ppu)

/-- `PpuFrameComplete()`: the signal as the call finds it (R10, R213). The Picture Unit may make transactions inside it
(D15), and change its own state. -/
def ppuFrameComplete (E : Env) (s : State) : Bool × State :=
  (s.ppu.frameComplete, portCall E (E.ppuFrameComplete s.ppu) s)

/-- `ProcNmi()`: assert the Processor's interrupt line; no transaction (R142, D13). -/
def procNmi (p : Processor) : Processor := { p with nmiAsserts := p.nmiAsserts + 1 }

/-! ### The regions of the processor-side space (R101 to R112) -/

/-- `RD.RAM` (R101). -/
def ramRead (E : Env) (a : Addr) (s : State) : Byte × State := (Memory.read E.ramInit s.ram (ramIndex a), s)

/-- `WR.RAM` (R102). -/
def ramWrite (E : Env) (a : Addr) (v : Byte) (s : State) : State :=
  s.setRam (Memory.write E.ramInit s.ram (ramIndex a) v)

/-- `RD.PPUREG` (R103). -/
def ppuRegRead (E : Env) (a : Addr) (s : State) : Byte × State := ppuCall E (E.ppuRegRead (ppuRegOf a) s.ppu) s

/-- `WR.PPUREG` (R104). -/
def ppuRegWrite (E : Env) (a : Addr) (v : Byte) (s : State) : State :=
  (ppuCall E (E.ppuRegWrite (ppuRegOf a) v s.ppu) s).2

/-- The register a controller read takes its bit from: the live byte in strobe mode, else what is latched (R105). -/
def ctrlLatch (p : PortNo) (s : State) : Byte := if s.strobe then s.ctrl.get p else s.shift.get p

/-- `RD.CTRL` (R105). -/
def ctrlRead (E : Env) (p : PortNo) (s : State) : Byte × State :=
  (topBit (ctrlLatch p s), s.setShift (s.shift.set p (shiftIn (ctrlLatch p s) E.ctrlFillBit)))

/-- `WR.OAMDMA` (R107). -/
def dmaTrigger (v : Byte) (s : State) : State := s.setDma (s.dma.trigger v)

/-- `RD.OAMDMA` and `RD.OPEN` (R108, R109). -/
def openRead (E : Env) (s : State) : Byte × State := (openBus E, s)

/-- `WR.OPEN`: the byte is discarded (R110). -/
def openWrite (_v : Byte) (s : State) : State := s

/-- `RD.CART` (R111). -/
def windowRead (E : Env) (a : Addr) (s : State) : Byte × State := (slotCpuRead E s.cart a, s)

/-- `WR.CART` (R112). -/
def windowWrite (a : Addr) (v : Byte) (s : State) : State := s.setCart (slotCpuWrite s.cart a v)

/-- `BusRead(a)`, total, selecting by the range of the address (R100). It serves every requester (R115). -/
def busRead (E : Env) (a : Addr) (s : State) : Byte × State :=
  if a.toNat ≤ 0x1FFF then ramRead E a s
  else if a.toNat ≤ 0x3FFF then ppuRegRead E a s
  else if a.toNat = 0x4014 then openRead E s
  else if a.toNat = 0x4016 ∨ a.toNat = 0x4017 then ctrlRead E (portOf a) s
  else if a.toNat ≤ 0x401F then openRead E s
  else windowRead E a s

/-- `BusWrite(a, v)`, total, selecting by the range of the address (R100). It serves every requester (R115). -/
def busWrite (E : Env) (a : Addr) (v : Byte) (s : State) : State :=
  if a.toNat ≤ 0x1FFF then ramWrite E a v s
  else if a.toNat ≤ 0x3FFF then ppuRegWrite E a v s
  else if a.toNat = 0x4014 then dmaTrigger v s
  else if a.toNat = 0x4016 then strobeWrite v s
  else if a.toNat ≤ 0x401F then openWrite v s
  else windowWrite a v s

/-! ### The slot (R143 to R147) -/

/-- What the Processor does in its slot: its transactions in order, each result known before the next (R144). -/
def runProc (E : Env) : ProcProg → State → State
  | .read a k, s => runProc E (k (busRead E a s).1) (busRead E a s).2
  | .write a v k, s => runProc E k (busWrite E a v s)
  | .done p, s => s.setProc p

/-- `ProcStep()` (R144). -/
def procSlot (E : Env) (s : State) : State := runProc E (E.procStep s.proc) s

/-- The dummy sub-step (R145). -/
def dmaDummy (s : State) : State := s.setDma s.dma.endDummy

/-- The read sub-step: an ordinary processor-side read, with its side effects (R146, R153). -/
def dmaRead (E : Env) (s : State) : State :=
  let r := busRead E (dmaAddr s.dma.page s.dma.cursor) s
  r.2.setDma (r.2.dma.stage r.1)

/-- The write sub-step, straight into object memory, and the end of the transfer (R147). -/
def dmaWrite (E : Env) (s : State) : State :=
  (oamWrite E s.dma.cursor s.dma.data s).setDma s.dma.advance

/-- `DmaSubStep()` (R145 to R147). -/
def dmaSubStep (E : Env) (s : State) : State :=
  if s.dma.dummy then dmaDummy s
  else if s.dma.phase then dmaWrite E s
  else dmaRead E s

/-! ### Raising a condition, and the host boundary -/

/-- `raise E(info)`: the operation ends, no state of the router or of its neighbours changes, and the condition is
reported to the host that issued it (R9, R230, R239). There is no handler, so there is no return operation (R240):
any later operation is legal. -/
def raiseCondition (c : Condition) (s : State) : State := s.setReply (.raised c)

/-- An operation that returns a byte completes (R12, R81). -/
def answer (r : Byte × State) : Host.Outcome State Fault Refusal := .next (r.2.setReply (.value r.1))

/-- An operation that returns nothing completes (R12, R81). -/
def finish (s : State) : Host.Outcome State Fault Refusal := .next (s.setReply .done)

/-- Take what the host has asked for next, and the machine with the payload of an operation presented (R85, R214). None
when the host has asked for nothing. -/
def fetch (s : State) : Option (HostOp × State) :=
  match s.pending with
  | [] => none
  | .word w p :: rest => some (.word w p, (s.setPending rest).setPayload p)
  | .frameComplete :: rest => some (.frameComplete, s.setPending rest)

end Sys2Proof.Machine
end

