-- ==== Sys2Proof/Machine/BusRead.lean ====
section
/-! DEFINITION. The meanings of the processor-side reads `RD.*` (R100, R101, R103, R105, R108, R109, R111). -/

namespace Sys2Proof.Machine

/-- `RD.RAM` (R101). -/
def execRdRam (a : Addr) (s : State) : Host.Outcome State Fault Refusal :=
  answer (ramRead Config.env a s)

/-- `RD.PPUREG` (R103). -/
def execRdPpuReg (a : Addr) (s : State) : Host.Outcome State Fault Refusal :=
  answer (ppuRegRead Config.env a s)

/-- `RD.OPEN_4000` (R109). -/
def execRdOpen4000 (_a : Addr) (s : State) : Host.Outcome State Fault Refusal :=
  answer (openRead Config.env s)

/-- `RD.OPEN_4010` (R109). -/
def execRdOpen4010 (_a : Addr) (s : State) : Host.Outcome State Fault Refusal :=
  answer (openRead Config.env s)

/-- `RD.OAMDMA` (R108). -/
def execRdOamDma (s : State) : Host.Outcome State Fault Refusal :=
  answer (openRead Config.env s)

/-- `RD.OPEN_4015` (R109). -/
def execRdOpen4015 (s : State) : Host.Outcome State Fault Refusal :=
  answer (openRead Config.env s)

/-- `RD.CTRL` (R105). -/
def execRdCtrl (p : PortNo) (s : State) : Host.Outcome State Fault Refusal :=
  answer (ctrlRead Config.env p s)

/-- `RD.OPEN_4018` (R109). -/
def execRdOpen4018 (_a : Addr) (s : State) : Host.Outcome State Fault Refusal :=
  answer (openRead Config.env s)

/-- `RD.CART_4020` (R111). -/
def execRdCart4020 (a : Addr) (s : State) : Host.Outcome State Fault Refusal :=
  answer (windowRead Config.env a s)

/-- `RD.CART_4040` (R111). -/
def execRdCart4040 (a : Addr) (s : State) : Host.Outcome State Fault Refusal :=
  answer (windowRead Config.env a s)

/-- `RD.CART_4080` (R111). -/
def execRdCart4080 (a : Addr) (s : State) : Host.Outcome State Fault Refusal :=
  answer (windowRead Config.env a s)

/-- `RD.CART_4100` (R111). -/
def execRdCart4100 (a : Addr) (s : State) : Host.Outcome State Fault Refusal :=
  answer (windowRead Config.env a s)

/-- `RD.CART_4200` (R111). -/
def execRdCart4200 (a : Addr) (s : State) : Host.Outcome State Fault Refusal :=
  answer (windowRead Config.env a s)

/-- `RD.CART_4400` (R111). -/
def execRdCart4400 (a : Addr) (s : State) : Host.Outcome State Fault Refusal :=
  answer (windowRead Config.env a s)

/-- `RD.CART_4800` (R111). -/
def execRdCart4800 (a : Addr) (s : State) : Host.Outcome State Fault Refusal :=
  answer (windowRead Config.env a s)

/-- `RD.CART_5000` (R111). -/
def execRdCart5000 (a : Addr) (s : State) : Host.Outcome State Fault Refusal :=
  answer (windowRead Config.env a s)

/-- `RD.CART_6000` (R111). -/
def execRdCart6000 (a : Addr) (s : State) : Host.Outcome State Fault Refusal :=
  answer (windowRead Config.env a s)

/-- `RD.CART_8000` (R111). -/
def execRdCart8000 (a : Addr) (s : State) : Host.Outcome State Fault Refusal :=
  answer (windowRead Config.env a s)

end Sys2Proof.Machine
end

