-- ==== Sys2Proof/Machine/BusWrite.lean ====
section
/-! DEFINITION. The meanings of the processor-side writes `WR.*` (R100, R102, R104, R106, R107, R110, R112). -/

namespace Sys2Proof.Machine

/-- `WR.RAM` (R102). -/
def execWrRam (a : Addr) (v : Byte) (s : State) : Host.Outcome State Fault Refusal :=
  finish (ramWrite Config.env a v s)

/-- `WR.PPUREG` (R104). -/
def execWrPpuReg (a : Addr) (v : Byte) (s : State) : Host.Outcome State Fault Refusal :=
  finish (ppuRegWrite Config.env a v s)

/-- `WR.OPEN_4000` (R110). -/
def execWrOpen4000 (_a : Addr) (v : Byte) (s : State) : Host.Outcome State Fault Refusal :=
  finish (openWrite v s)

/-- `WR.OPEN_4010` (R110). -/
def execWrOpen4010 (_a : Addr) (v : Byte) (s : State) : Host.Outcome State Fault Refusal :=
  finish (openWrite v s)

/-- `WR.OAMDMA` (R107). -/
def execWrOamDma (v : Byte) (s : State) : Host.Outcome State Fault Refusal :=
  finish (dmaTrigger v s)

/-- `WR.OPEN_4015` (R110). -/
def execWrOpen4015 (v : Byte) (s : State) : Host.Outcome State Fault Refusal :=
  finish (openWrite v s)

/-- `WR.STROBE` (R106). -/
def execWrStrobe (v : Byte) (s : State) : Host.Outcome State Fault Refusal :=
  finish (strobeWrite v s)

/-- `WR.OPEN_4017` (R110). -/
def execWrOpen4017 (v : Byte) (s : State) : Host.Outcome State Fault Refusal :=
  finish (openWrite v s)

/-- `WR.OPEN_4018` (R110). -/
def execWrOpen4018 (_a : Addr) (v : Byte) (s : State) : Host.Outcome State Fault Refusal :=
  finish (openWrite v s)

/-- `WR.CART_4020` (R112). -/
def execWrCart4020 (a : Addr) (v : Byte) (s : State) : Host.Outcome State Fault Refusal :=
  finish (windowWrite a v s)

/-- `WR.CART_4040` (R112). -/
def execWrCart4040 (a : Addr) (v : Byte) (s : State) : Host.Outcome State Fault Refusal :=
  finish (windowWrite a v s)

/-- `WR.CART_4080` (R112). -/
def execWrCart4080 (a : Addr) (v : Byte) (s : State) : Host.Outcome State Fault Refusal :=
  finish (windowWrite a v s)

/-- `WR.CART_4100` (R112). -/
def execWrCart4100 (a : Addr) (v : Byte) (s : State) : Host.Outcome State Fault Refusal :=
  finish (windowWrite a v s)

/-- `WR.CART_4200` (R112). -/
def execWrCart4200 (a : Addr) (v : Byte) (s : State) : Host.Outcome State Fault Refusal :=
  finish (windowWrite a v s)

/-- `WR.CART_4400` (R112). -/
def execWrCart4400 (a : Addr) (v : Byte) (s : State) : Host.Outcome State Fault Refusal :=
  finish (windowWrite a v s)

/-- `WR.CART_4800` (R112). -/
def execWrCart4800 (a : Addr) (v : Byte) (s : State) : Host.Outcome State Fault Refusal :=
  finish (windowWrite a v s)

/-- `WR.CART_5000` (R112). -/
def execWrCart5000 (a : Addr) (v : Byte) (s : State) : Host.Outcome State Fault Refusal :=
  finish (windowWrite a v s)

/-- `WR.CART_6000` (R112). -/
def execWrCart6000 (a : Addr) (v : Byte) (s : State) : Host.Outcome State Fault Refusal :=
  finish (windowWrite a v s)

/-- `WR.CART_8000` (R112). -/
def execWrCart8000 (a : Addr) (v : Byte) (s : State) : Host.Outcome State Fault Refusal :=
  finish (windowWrite a v s)

end Sys2Proof.Machine
end

