-- ==== Sys2Proof/Machine/Clock.lean ====
section
/-! DEFINITION. The meaning of `CLK`: one global clock step, four phases in a fixed order (R140, R268). -/

namespace Sys2Proof.Machine

/-- Phase 1, the Picture Unit's dot: one `PpuTick()` (R141). -/
def ppuDot (E : Env) (s : State) : State := (ppuCall E (E.ppuTick s.ppu) s).2

/-- Phase 2, the interrupt forward: if `PpuTakeNmi()` reports a pending condition, `ProcNmi()` once; the router keeps
no state about it (R142). -/
def forwardNmi (E : Env) (s : State) : State :=
  let r := ppuTakeNmi E s
  if r.1 then r.2.setProc (procNmi r.2.proc) else r.2

/-- Phase 3, slot selection: in a step with a slot, the DMA engine while a transfer is active, else the Processor
(R143). -/
def slotPhase (E : Env) (s : State) : State :=
  if slotAt s.tick then
    if s.dma.active then dmaSubStep E s else procSlot E s
  else s

/-- Phase 4, the tick increment (R148). -/
def tickPhase (s : State) : State := s.setTick (s.tick + 1)

/-- `Clock()` (R140). -/
def clock (E : Env) (s : State) : State := tickPhase (slotPhase E (forwardNmi E (ppuDot E s)))

/-- `CLK` (R140). -/
def execClk (s : State) : Host.Outcome State Fault Refusal := finish (clock Config.env s)

end Sys2Proof.Machine
end

