-- ==== Sys2Proof/Machine/HostOps.lean ====
section
/-! DEFINITION. The meanings of the host's operations `CTL` and `INS` (R210, R211), and of its read of the "frame complete"
signal, which has no operation word (R213). -/

namespace Sys2Proof.Machine

/-- `CTL` (R211). -/
def execCtl (p : PortNo) (v : Byte) (s : State) : Host.Outcome State Fault Refusal :=
  finish (s.setCtrl (s.ctrl.set p v))

/-- Insert the Cartridge of a header and the payload beside the word, or raise the condition its image fails with and
change nothing (R210, R171). -/
def insertCart (h : Header) (s : State) : State :=
  match checkImage h s.payload with
  | .error c => raiseCondition c s
  | .ok v => (s.setCart (some (cartNew h v s.payload.prg s.payload.chr))).setReply .done

/-- `INS` (R210). -/
def execIns (pb gb m : Byte) (v : Bool) (s : State) : Host.Outcome State Fault Refusal :=
  .next (insertCart { prgBanks := pb, chrBanks := gb, mapperId := m, mirrorVertical := v } s)

/-- The host reads the "frame complete" signal (R213). -/
def execFrameComplete (s : State) : Host.Outcome State Fault Refusal :=
  let r := ppuFrameComplete Config.env s
  .next (r.2.setReply (.signal r.1))

end Sys2Proof.Machine
end

