-- ==== Sys2Proof/Machine/PpuPort.lean ====
section
/-! DEFINITION. The meanings of `PRD` and `PWR`, the picture-unit-side cartridge port (R51, R176, R177). -/

namespace Sys2Proof.Machine

/-- `PRD` (R176). -/
def execPrd (a : Addr) (s : State) : Host.Outcome State Fault Refusal :=
  answer (slotPpuRead Config.env s.cart a, s)

/-- `PWR` (R177). -/
def execPwr (a : Addr) (v : Byte) (s : State) : Host.Outcome State Fault Refusal :=
  finish (s.setCart (slotPpuWrite Config.env s.cart a v))

end Sys2Proof.Machine
end

