-- ==== Sys2Proof/Machine/Dispatch.lean ====
section
/-! DEFINITION. The meaning of each operation: one arm per row of opcode_table.json (R87). -/

namespace Sys2Proof.Machine

def exec (i : Instr) (s : State) : Host.Outcome State Fault Refusal :=
  match i with
  | .rdRam a => Sys2Proof.Machine.execRdRam a s
  | .rdPpuReg a => Sys2Proof.Machine.execRdPpuReg a s
  | .rdOpen4000 a => Sys2Proof.Machine.execRdOpen4000 a s
  | .rdOpen4010 a => Sys2Proof.Machine.execRdOpen4010 a s
  | .rdOamDma => Sys2Proof.Machine.execRdOamDma s
  | .rdOpen4015 => Sys2Proof.Machine.execRdOpen4015 s
  | .rdCtrl p => Sys2Proof.Machine.execRdCtrl p s
  | .rdOpen4018 a => Sys2Proof.Machine.execRdOpen4018 a s
  | .rdCart4020 a => Sys2Proof.Machine.execRdCart4020 a s
  | .rdCart4040 a => Sys2Proof.Machine.execRdCart4040 a s
  | .rdCart4080 a => Sys2Proof.Machine.execRdCart4080 a s
  | .rdCart4100 a => Sys2Proof.Machine.execRdCart4100 a s
  | .rdCart4200 a => Sys2Proof.Machine.execRdCart4200 a s
  | .rdCart4400 a => Sys2Proof.Machine.execRdCart4400 a s
  | .rdCart4800 a => Sys2Proof.Machine.execRdCart4800 a s
  | .rdCart5000 a => Sys2Proof.Machine.execRdCart5000 a s
  | .rdCart6000 a => Sys2Proof.Machine.execRdCart6000 a s
  | .rdCart8000 a => Sys2Proof.Machine.execRdCart8000 a s
  | .wrRam a v => Sys2Proof.Machine.execWrRam a v s
  | .wrPpuReg a v => Sys2Proof.Machine.execWrPpuReg a v s
  | .wrOpen4000 a v => Sys2Proof.Machine.execWrOpen4000 a v s
  | .wrOpen4010 a v => Sys2Proof.Machine.execWrOpen4010 a v s
  | .wrOamDma v => Sys2Proof.Machine.execWrOamDma v s
  | .wrOpen4015 v => Sys2Proof.Machine.execWrOpen4015 v s
  | .wrStrobe v => Sys2Proof.Machine.execWrStrobe v s
  | .wrOpen4017 v => Sys2Proof.Machine.execWrOpen4017 v s
  | .wrOpen4018 a v => Sys2Proof.Machine.execWrOpen4018 a v s
  | .wrCart4020 a v => Sys2Proof.Machine.execWrCart4020 a v s
  | .wrCart4040 a v => Sys2Proof.Machine.execWrCart4040 a v s
  | .wrCart4080 a v => Sys2Proof.Machine.execWrCart4080 a v s
  | .wrCart4100 a v => Sys2Proof.Machine.execWrCart4100 a v s
  | .wrCart4200 a v => Sys2Proof.Machine.execWrCart4200 a v s
  | .wrCart4400 a v => Sys2Proof.Machine.execWrCart4400 a v s
  | .wrCart4800 a v => Sys2Proof.Machine.execWrCart4800 a v s
  | .wrCart5000 a v => Sys2Proof.Machine.execWrCart5000 a v s
  | .wrCart6000 a v => Sys2Proof.Machine.execWrCart6000 a v s
  | .wrCart8000 a v => Sys2Proof.Machine.execWrCart8000 a v s
  | .prd a => Sys2Proof.Machine.execPrd a s
  | .pwr a v => Sys2Proof.Machine.execPwr a v s
  | .clk => Sys2Proof.Machine.execClk s
  | .ctl p v => Sys2Proof.Machine.execCtl p v s
  | .ins pb gb m v => Sys2Proof.Machine.execIns pb gb m v s

end Sys2Proof.Machine
end

