-- ==== Sys2Proof/Machine/Step.lean ====
section
/-! DEFINITION. One step: the router performs the host's next operation. It fetches no instruction stream (R30); the
host issues operations one at a time (R214). -/

namespace Sys2Proof.Machine

/-- Perform the host's next operation (R12). With none issued the router holds its state (R216, R246); what is no
operation word is refused (R88, R233). -/
def step (s : State) : Host.Outcome State Fault Refusal :=
  match fetch s with
  | none => .next s
  | some (.frameComplete, s') => execFrameComplete s'
  | some (.word w _, s') =>
    match decodeWord w with
    | .ok i => exec i s'
    | .error r => .refused (.addrContract r)

/-- A payload of the sizes the word's header declares, all bytes zero, the loader content (R85). -/
def payloadFor (x : OpWord) : Payload where
  loaderOk := true
  prg := { size := prgLength (fieldPb x), cells := [] }
  chr := { size := chrLength (fieldGb x), cells := [] }

/-- The host issues the operation whose bits are `w`, before any other it has issued; beside the word of an `INS`
stands a payload of the declared sizes. -/
def State.withFetchWord (s : State) (nbits w : Nat) : State :=
  s.setPending (.word (w % 2 ^ nbits) (payloadFor (BitVec.ofNat 28 (w % 2 ^ nbits))) :: s.pending)

end Sys2Proof.Machine
end

