-- ==== Sys2Proof/Safety.lean ====
section
/-! DEFINITION. The terms claims are stated in: the invariant of the machine (R35 and the canonical forms), what stays
of the Cartridge, runs of operations, and what it is for a Picture Unit to leave its object memory alone. -/

namespace Sys2Proof.Machine

/-- R35 (f): while the dummy flag is set the transfer is active, at its first byte, about to read. -/
def Dma.wf (d : Dma) : Prop :=
  d.dummy = true → d.active = true ∧ d.cursor = 0 ∧ d.phase = false

/-- R35 (d): the storage lengths are those the counts declare, there is a program bank, and the Mapper is the variant
the table gives for the identifier, constructed from the two counts (R26); the storages are in canonical form. -/
def Cartridge.wf (c : Cartridge) : Prop :=
  c.prg.size = prgLength c.header.prgBanks ∧ c.chr.size = chrLength c.header.chrBanks ∧ c.header.prgBanks ≠ 0 ∧
  (∃ v, mapperTable c.header.mapperId = some v ∧ c.mapper = v.construct c.header.prgBanks c.header.chrBanks) ∧
  c.prg.wf = true ∧ c.chr.wf = true

/-- The byte sequences of a payload are in canonical form. -/
def Payload.wf (p : Payload) : Prop := p.prg.wf = true ∧ p.chr.wf = true

/-- What travels beside an issued operation is in canonical form. -/
def HostOp.wf : HostOp → Prop
  | .word _ p => p.wf
  | .frameComplete => True

/-- The invariant of the machine: RAM has 2048 bytes and object memory 256, both in canonical form (R21, R28); an
inserted Cartridge is as R35 (d) says; the DMA state as R35 (f) says; what the host presents is in canonical form. -/
structure State.Inv (E : Env) (s : State) : Prop where
  ram     : Memory.wf E.ramInit 2048 s.ram = true
  oam     : Memory.wf E.oamInit 256 s.ppu.oam = true
  cart    : ∀ c, s.cart = some c → c.wf
  dma     : s.dma.wf
  payload : s.payload.wf
  pending : ∀ op ∈ s.pending, op.wf

/-- What no operation but `INS` changes of the slot (R180): presence, header, program storage, Mapper, and the length
of graphics storage. -/
def cartKept : Option Cartridge → Option Cartridge → Prop
  | none, none => True
  | some c, some c' =>
    c'.header = c.header ∧ c'.prg = c.prg ∧ c'.mapper = c.mapper ∧ c'.chr.size = c.chr.size
  | none, some _ => False
  | some _, none => False

/-- Perform operations in order, each from the state the one before it left (R214). -/
def execs : List Instr → State → Host.Outcome State Fault Refusal
  | [], s => .next s
  | i :: is, s =>
    match exec i s with
    | .next t => execs is t
    | .fault r => .fault r
    | .refused r => .refused r

/-- A safe step: the machine goes on (R12 (a), (b)). -/
def Goes (s : State) : Prop := ∃ t, step s = .next t

/-- A state some run of host operations reaches from reset, the host issuing whatever it likes between steps (R216).
-/
inductive Reachable : State → Prop where
  | reset : Reachable State.reset
  | issue (s : State) (ops : List HostOp) (h : Reachable s) (hp : ∀ op ∈ ops, op.wf) :
      Reachable (s.setPending (s.pending ++ ops))
  | step (s t : State) (h : Reachable s) (hs : Machine.step s = .next t) : Reachable t

/-- A call of the Picture Unit that writes no object memory, whatever it is answered (R152's condition on it). -/
def oamSilent {α : Type} : PpuProg α → Prop
  | .read _ k => ∀ b, oamSilent (k b)
  | .write _ _ k => oamSilent k
  | .mirror k => ∀ m, oamSilent (k m)
  | .oam _ _ _ => False
  | .done _ _ _ _ => True

/-- `n` clock steps (R91 `CLK n`) as they act on the machine. -/
def clocks (E : Env) : Nat → State → State
  | 0, s => s
  | n + 1, s => clocks E n (clock E s)

/-- The read of an address, by the ranges of R50 (R87's table). -/
def readOp (a : Addr) : Instr :=
  if a.toNat ≤ 0x1FFF then .rdRam a
  else if a.toNat ≤ 0x3FFF then .rdPpuReg a
  else if a.toNat ≤ 0x400F then .rdOpen4000 a
  else if a.toNat ≤ 0x4013 then .rdOpen4010 a
  else if a.toNat ≤ 0x4014 then .rdOamDma
  else if a.toNat ≤ 0x4015 then .rdOpen4015
  else if a.toNat ≤ 0x4017 then .rdCtrl (BitVec.ofNat 1 (a.toNat % 2))
  else if a.toNat ≤ 0x401F then .rdOpen4018 a
  else if a.toNat ≤ 0x403F then .rdCart4020 a
  else if a.toNat ≤ 0x407F then .rdCart4040 a
  else if a.toNat ≤ 0x40FF then .rdCart4080 a
  else if a.toNat ≤ 0x41FF then .rdCart4100 a
  else if a.toNat ≤ 0x43FF then .rdCart4200 a
  else if a.toNat ≤ 0x47FF then .rdCart4400 a
  else if a.toNat ≤ 0x4FFF then .rdCart4800 a
  else if a.toNat ≤ 0x5FFF then .rdCart5000 a
  else if a.toNat ≤ 0x7FFF then .rdCart6000 a
  else .rdCart8000 a

/-- The write of an address, by the ranges of R50 (R87's table). -/
def writeOp (a : Addr) (d : Byte) : Instr :=
  if a.toNat ≤ 0x1FFF then .wrRam a d
  else if a.toNat ≤ 0x3FFF then .wrPpuReg a d
  else if a.toNat ≤ 0x400F then .wrOpen4000 a d
  else if a.toNat ≤ 0x4013 then .wrOpen4010 a d
  else if a.toNat ≤ 0x4014 then .wrOamDma d
  else if a.toNat ≤ 0x4015 then .wrOpen4015 d
  else if a.toNat ≤ 0x4016 then .wrStrobe d
  else if a.toNat ≤ 0x4017 then .wrOpen4017 d
  else if a.toNat ≤ 0x401F then .wrOpen4018 a d
  else if a.toNat ≤ 0x403F then .wrCart4020 a d
  else if a.toNat ≤ 0x407F then .wrCart4040 a d
  else if a.toNat ≤ 0x40FF then .wrCart4080 a d
  else if a.toNat ≤ 0x41FF then .wrCart4100 a d
  else if a.toNat ≤ 0x43FF then .wrCart4200 a d
  else if a.toNat ≤ 0x47FF then .wrCart4400 a d
  else if a.toNat ≤ 0x4FFF then .wrCart4800 a d
  else if a.toNat ≤ 0x5FFF then .wrCart5000 a d
  else if a.toNat ≤ 0x7FFF then .wrCart6000 a d
  else .wrCart8000 a d

/-- The reads no destination answers (R108, R109). -/
def openReadOps (a : Addr) : List Instr :=
  [.rdOpen4000 a, .rdOpen4010 a, .rdOamDma, .rdOpen4015, .rdOpen4018 a]

/-- The writes no destination takes (R110). -/
def openWriteOps (a : Addr) (v : Byte) : List Instr :=
  [.wrOpen4000 a v, .wrOpen4010 a v, .wrOpen4015 v, .wrOpen4017 v, .wrOpen4018 a v]

/-- The reads of the cartridge window (R111). -/
def windowReadOps (a : Addr) : List Instr :=
  [.rdCart4020 a, .rdCart4040 a, .rdCart4080 a, .rdCart4100 a, .rdCart4200 a, .rdCart4400 a, .rdCart4800 a,
   .rdCart5000 a, .rdCart6000 a, .rdCart8000 a]

/-- The writes of the cartridge window (R112). -/
def windowWriteOps (a : Addr) (v : Byte) : List Instr :=
  [.wrCart4020 a v, .wrCart4040 a v, .wrCart4080 a v, .wrCart4100 a v, .wrCart4200 a v, .wrCart4400 a v,
   .wrCart4800 a v, .wrCart5000 a v, .wrCart6000 a v, .wrCart8000 a v]

/-- A reserved word (R88): class 5, 6 or 7; class 2 with any of bits 24:0 set; class 3 with any of bits 24:9 set. -/
def ReservedWord (x : OpWord) : Prop :=
  x.extractLsb' 25 3 = 5 ∨ x.extractLsb' 25 3 = 6 ∨ x.extractLsb' 25 3 = 7 ∨
  (x.extractLsb' 25 3 = 2 ∧ x.extractLsb' 0 25 ≠ 0) ∨ (x.extractLsb' 25 3 = 3 ∧ x.extractLsb' 9 16 ≠ 0)

/-- A transfer that has been triggered and has had no sub-step yet (R107). -/
def State.Armed (s : State) : Prop :=
  s.dma.active = true ∧ s.dma.dummy = true ∧ s.dma.cursor = 0 ∧ s.dma.phase = false

/-- The byte the bus reads at offset `j` of the source page of the transfer (R146). -/
def State.sourceByte (E : Env) (s : State) (j : Byte) : Byte := (busRead E (dmaAddr s.dma.page j) s).1

/-- What a transfer in progress from a page whose reads have no side effect (a RAM page, or a page of the cartridge
window, R152) has done so far is right: object memory below the cursor holds the source bytes, and between a read and
a write the staging byte is the one at the cursor. -/
def State.CopyInv (E : Env) (s : State) : Prop :=
  s.dma.active = true → s.dma.page.toNat < 0x20 ∨ 0x41 ≤ s.dma.page.toNat →
    (∀ j : Byte, j.toNat < s.dma.cursor.toNat → Memory.read E.oamInit s.ppu.oam j.toNat = s.sourceByte E j) ∧
    (s.dma.phase = true → s.dma.data = s.sourceByte E s.dma.cursor)

/-- The clock steps until the next one with a slot: `t1 - t0` of R150. -/
def stepsToSlot (tick : Nat) : Nat := (3 - tick % 3) % 3

end Sys2Proof.Machine
end

