-- ==== Sys2Proof/Certificates/Slice0/Obligations.lean ====
section
/-! DEFINITION. The statements about the machine, each the meaning of rules of spec/. A `Config` constant in a
statement is a free value: the statement holds whatever it is. A D<n> in a docstring names a decision of the spec
(92_eei_decisions.md) that is the spec's own choice and not its source's. -/

open Sys2Proof Sys2Proof.Machine

/-! ### Encoding (30_encoding.md). The layout of the word is the spec's own choice (D1, D29). -/

/-- Decoding the word of a well-formed operation gives it back, with every operand (R81 to R85, R87). -/
def Obligations.DecodeOfEncode : Prop :=
  ∀ i : Instr, i.wf = true → decode (encode i) = .ok i

/-- The other direction: a decoded word is the word of the operation it decodes to, but for the data bits of a read
("any value decodes to the same read", R81, and R82's same layout); and what is decoded is well-formed. -/
def Obligations.EncodeOfDecode : Prop :=
  ∀ (x : OpWord) (i : Instr), decode x = .ok i →
    i.wf = true ∧
    encode i = if x.toNat < 2 ^ 26 ∧ x.getLsbD 24 = false then x &&& 0xFFFFF00 else x

/-- A bus word decodes to the operation its write bit and the range of its address select; the port, clock, controller
and insertion words decode by their class (R87). -/
def Obligations.BusWordsDecodeByRange : Prop :=
  (∀ (a : Addr) (d : Byte), decode (wordBus 0 0 a d) = .ok (readOp a) ∧ decode (wordBus 0 1 a d) = .ok (writeOp a d)) ∧
  (∀ (a : Addr) (d : Byte), decode (wordBus 1 0 a d) = .ok (.prd a) ∧ decode (wordBus 1 1 a d) = .ok (.pwr a d)) ∧
  decode 0x4000000 = .ok .clk ∧
  (∀ (p : PortNo) (v : Byte), decode (wordCtl p v) = .ok (.ctl p v)) ∧
  (∀ (pb gb m : Byte) (v : Bool), decode (wordIns pb gb m v) = .ok (.ins pb gb m v))

/-- Every word selects exactly one row of the table, but the reserved ones, which select none (R87, R88). -/
def Obligations.EveryWordSelectsOneRow : Prop :=
  ∀ x : OpWord,
    (¬ ReservedWord x → (opcodeTable.filter (fun r => r.fits x)).length = 1) ∧
    (ReservedWord x → (opcodeTable.filter (fun r => r.fits x)).length = 0)

/-- A reserved word, issued, is refused: it is no operation and not a no-op (R88). -/
def Obligations.ReservedWordsAreRefused : Prop :=
  ∀ (x : OpWord) (s : State) (p : Payload) (rest : List HostOp),
    ReservedWord x → s.pending = .word x.toNat p :: rest →
    ∃ r, decode x = .error r ∧ step s = .refused (.addrContract r)

/-- Words written out from the patterns of R81 to R85 and the listings of 95_test_vectors.md. -/
def Obligations.ListedWordsDecode : Prop :=
  decode 0b0000000110000000000100000000 = .ok (.rdRam 0x1801) ∧
  decode 0b0001010000000001010000000010 = .ok (.wrOamDma 0x02) ∧
  decode 0b0000010000000001011100000000 = .ok (.rdCtrl 1) ∧
  decode 0b0001100000000000000011111111 = .ok (.wrCart8000 0x8000 0xFF) ∧
  decode 0b0011000000000001000001010101 = .ok (.pwr 0x0010 0x55) ∧
  decode 0b0110000000000000000100111100 = .ok (.ctl 1 0x3C) ∧
  decode 0b1000000000100000001000001000 = .ok (.ins 1 1 4 false)

/-- A step performs the operation the host issued: its word decoded, its payload presented, taken off the list; with
none issued the machine holds its state (R214, R246). -/
def Obligations.StepRunsDecodedOperation : Prop :=
  (∀ (s : State) (w : Nat) (p : Payload) (rest : List HostOp) (i : Instr),
    s.pending = .word w p :: rest → w < 2 ^ 28 → decode (BitVec.ofNat 28 w) = .ok i →
    step s = exec i { s with pending := rest, payload := p }) ∧
  (∀ s : State, s.pending = [] → step s = .next s)

/-! ### Processor-side transactions (40_bus_decode.md) -/

/-- A host transaction at any address is the bus transaction every requester shares (R100, R115, R212). -/
def Obligations.HostTransactionIsBusTransaction : Prop :=
  ∀ (a : Addr) (v : Byte) (s : State),
    exec (readOp a) s = .next { (busRead Config.env a s).2 with reply := .value (busRead Config.env a s).1 } ∧
    exec (writeOp a v) s = .next { busWrite Config.env a v s with reply := .done }

/-- `RD.RAM` (R101): the byte at the address modulo 2048; no state changes. -/
def Obligations.RamReadReturnsByte : Prop :=
  ∀ (a : Addr) (s : State),
    exec (.rdRam a) s = .next { s with reply := .value (Memory.read Config.ramInit s.ram (a.toNat % 2048)) }

/-- `WR.RAM` (R102): exactly one byte of RAM changes, nothing else. -/
def Obligations.RamWriteStoresOneByte : Prop :=
  ∀ (a : Addr) (v : Byte) (s : State),
    ∃ m, exec (.wrRam a v) s = .next { s with ram := m, reply := .done } ∧
      ∀ j, Memory.read Config.ramInit m j =
        if j = a.toNat % 2048 then v else Memory.read Config.ramInit s.ram j

/-- RAM mirroring (R57 (a)): an address and its alias 0x0800 away read the same byte, and a store to either is the
same store. -/
def Obligations.RamMirrors : Prop :=
  ∀ (a : Addr) (v : Byte) (s : State), a.toNat ≤ 0x1FFF →
    (a ^^^ 0x0800#16).toNat ≤ 0x1FFF ∧
    exec (readOp (a ^^^ 0x0800#16)) s = exec (readOp a) s ∧
    exec (writeOp (a ^^^ 0x0800#16) v) s = exec (writeOp a v) s

/-- `RD.PPUREG` (R103): the Picture Unit's register read of the address modulo 8; only the Picture Unit and, through
it, the cartridge slot are what its call leaves. -/
def Obligations.PpuRegReadForwards : Prop :=
  ∀ (a : Addr) (s : State),
    exec (.rdPpuReg a) s =
      let r := runPpu Config.env (Config.ppuRegRead (BitVec.ofNat 3 (a.toNat % 8)) s.ppu) s.cart s.ppu
      .next { s with cart := r.2.1, ppu := r.2.2, reply := .value r.1 }

/-- `WR.PPUREG` (R104). -/
def Obligations.PpuRegWriteForwards : Prop :=
  ∀ (a : Addr) (v : Byte) (s : State),
    exec (.wrPpuReg a v) s =
      let r := runPpu Config.env (Config.ppuRegWrite (BitVec.ofNat 3 (a.toNat % 8)) v s.ppu) s.cart s.ppu
      .next { s with cart := r.2.1, ppu := r.2.2, reply := .done }

/-- Picture Unit register mirroring (R57 (b)). -/
def Obligations.PpuRegMirrors : Prop :=
  ∀ (a : Addr) (v : Byte) (s : State), 0x2000 ≤ a.toNat → a.toNat ≤ 0x3FFF →
    exec (readOp a) s = exec (readOp (BitVec.ofNat 16 (0x2000 + a.toNat % 8))) s ∧
    exec (writeOp a v) s = exec (writeOp (BitVec.ofNat 16 (0x2000 + a.toNat % 8)) v) s

/-- Whatever the Picture Unit does inside a register access, of the slot only bytes of graphics storage can change
(R103, R104, R11). -/
def Obligations.PpuRegAccessKeepsCartridge : Prop :=
  ∀ (a : Addr) (v : Byte) (s : State),
    (∃ t, exec (.rdPpuReg a) s = .next t ∧ cartKept s.cart t.cart) ∧
    (∃ t, exec (.wrPpuReg a v) s = .next t ∧ cartKept s.cart t.cart)

/-- `RD.CTRL` (R105): re-latch in strobe mode, return bit 7 in bit 0, shift left by one with the fill bit entering;
the other port and everything else stay. That the bit stands in bit 0 and what enters at the right are D8 and D9. -/
def Obligations.CtrlReadShiftsOneBit : Prop :=
  ∀ s : State,
    (let b := if s.strobe then s.ctrl.port0 else s.shift.port0
     exec (.rdCtrl 0) s = .next { s with
       shift := { s.shift with port0 := BitVec.ofNat 8 (2 * b.toNat + Config.ctrlFillBit.toNat) },
       reply := .value (if 128 ≤ b.toNat then 1 else 0) }) ∧
    (let b := if s.strobe then s.ctrl.port1 else s.shift.port1
     exec (.rdCtrl 1) s = .next { s with
       shift := { s.shift with port1 := BitVec.ofNat 8 (2 * b.toNat + Config.ctrlFillBit.toNat) },
       reply := .value (if 128 ≤ b.toNat then 1 else 0) })

/-- `WR.STROBE` (R106): both ports latched, whatever the data; strobe mode is bit 0 of the data (D10: the spec's
reading of "toggles"). -/
def Obligations.StrobeWriteLatchesBothPorts : Prop :=
  ∀ (v : Byte) (s : State),
    exec (.wrStrobe v) s = .next { s with shift := s.ctrl, strobe := decide (v.toNat % 2 = 1), reply := .done }

/-- The controller read-out: strobe with 1 and then 0, then read a port; the read after n earlier ones gives bit
7 - n of the live byte, and from the ninth on the fill bit (R105, R106). -/
def Obligations.ControllerReadOut : Prop :=
  ∀ (p : PortNo) (n : Nat) (s : State),
    ∃ t u, execs ([.wrStrobe 1, .wrStrobe 0] ++ List.replicate n (.rdCtrl p)) s = .next t ∧
      exec (.rdCtrl p) t = .next u ∧
      u.reply = .value (if (if n < 8 then (s.ctrl.get p).getLsbD (7 - n) else Config.ctrlFillBit) then 1 else 0)

/-- `WR.OAMDMA` (R107): page loaded, cursor 0, active, dummy, phase 0, staging byte kept; during a transfer it is the
same (a restart). The phase and the restart are D6 and D7. -/
def Obligations.OamDmaWriteArmsTransfer : Prop :=
  ∀ (v : Byte) (s : State),
    exec (.wrOamDma v) s = .next { s with
      dma := { page := v, cursor := 0, data := s.dma.data, active := true, dummy := true, phase := false },
      reply := .done }

/-- A read no destination answers returns the open-bus byte and changes nothing (R108, R109; D3, D4). -/
def Obligations.UnclaimedReadsReturnOpenBus : Prop :=
  ∀ (a : Addr) (s : State), ∀ i ∈ openReadOps a,
    exec i s = .next { s with reply := .value Config.openBusFill }

/-- A write no destination takes is discarded (R110; D4, D11). -/
def Obligations.UnclaimedWritesAreDiscarded : Prop :=
  ∀ (a : Addr) (v : Byte) (s : State), ∀ i ∈ openWriteOps a v,
    exec i s = .next { s with reply := .done }

/-- `RD.CART` (R111, R172, R192): open bus with no Cartridge (D28; the byte is D3); else the byte of program storage
at the address modulo 16384 for one program bank, modulo 32768 for more, in the lower part of the window too (D33).
The premise is the invariant of R35 (d). -/
def Obligations.WindowReadsProgramStorage : Prop :=
  ∀ (a : Addr) (s : State), (∀ c, s.cart = some c → c.wf) → ∀ i ∈ windowReadOps a,
    exec i s = .next { s with reply := .value (match s.cart with
      | none => Config.openBusFill
      | some c => Memory.read imageInit c.prg.cells
          (if c.header.prgBanks = 1 then a.toNat % 16384 else a.toNat % 32768)) }

/-- `WR.CART` (R112, R173, R193): discarded, with or without a Cartridge (D28). -/
def Obligations.WindowWritesAreDiscarded : Prop :=
  ∀ (a : Addr) (v : Byte) (s : State), ∀ i ∈ windowWriteOps a v,
    exec i s = .next { s with reply := .done }

/-- Aliasing under variant 0 (R197 (a), (b)): two addresses of the window equal modulo 16384 with one program bank, or
modulo 32768 with more, read the same byte. -/
def Obligations.ProgramStorageMirrors : Prop :=
  ∀ (a b : Addr) (s : State) (c : Cartridge), s.cart = some c → c.wf → 0x4020 ≤ a.toNat → 0x4020 ≤ b.toNat →
    (if c.header.prgBanks = 1 then a.toNat % 16384 = b.toNat % 16384 else a.toNat % 32768 = b.toNat % 32768) →
    exec (readOp a) s = exec (readOp b) s

/-- What a processor-side, port or host operation may change, by the kind of state (R114, and R211, R176, R177). -/
def Obligations.TransactionsChangeOnlyWhatTheyName : Prop :=
  ∀ (i : Instr) (s t : State), i ≠ .clk → exec i s = .next t →
    t.tick = s.tick ∧ t.proc = s.proc ∧ t.pending = s.pending ∧ t.payload = s.payload ∧
    ((∀ a v, i ≠ .wrRam a v) → t.ram = s.ram) ∧
    ((∀ v, i ≠ .wrOamDma v) → t.dma = s.dma) ∧
    ((∀ p, i ≠ .rdCtrl p) → (∀ v, i ≠ .wrStrobe v) → t.shift = s.shift) ∧
    ((∀ v, i ≠ .wrStrobe v) → t.strobe = s.strobe) ∧
    ((∀ p v, i ≠ .ctl p v) → t.ctrl = s.ctrl) ∧
    ((∀ a, i ≠ .rdPpuReg a) → (∀ a v, i ≠ .wrPpuReg a v) → t.ppu = s.ppu ∧
      ((∀ a v, i ≠ .pwr a v) → (∀ pb gb m v, i ≠ .ins pb gb m v) → t.cart = s.cart))

/-! ### The Cartridge and the picture-unit port (42_cartridge.md, 43_mapper0.md) -/

/-- `PRD` (R176, R174, R194): open bus with no Cartridge or no graphics bank; else the byte of graphics storage at the
address modulo 8192. The premise is the invariant of R35 (d); open bus with no bank is D20. -/
def Obligations.PortReadReturnsGraphicsByte : Prop :=
  ∀ (a : Addr) (s : State), (∀ c, s.cart = some c → c.wf) →
    exec (.prd a) s = .next { s with reply := .value (match s.cart with
      | none => Config.openBusFill
      | some c => if c.header.chrBanks = 0 then Config.openBusFill
                  else Memory.read imageInit c.chr.cells (a.toNat % 8192)) }

/-- `PWR` (R177, R175, R195, R178), for both values of the open parameter: discarded with no Cartridge, with no
graphics bank (D20) or where variant 0 does not accept (D18, open); else exactly one byte of graphics storage changes.
Nothing else changes. -/
def Obligations.PortWriteStoresGraphicsByte : Prop :=
  ∀ (a : Addr) (v : Byte) (s : State),
    (s.cart = none → exec (.pwr a v) s = .next { s with reply := .done }) ∧
    (∀ c, s.cart = some c → c.wf → c.header.chrBanks = 0 → exec (.pwr a v) s = .next { s with reply := .done }) ∧
    (∀ c, s.cart = some c → c.wf → c.header.chrBanks ≠ 0 →
      ∃ g, exec (.pwr a v) s = .next { s with cart := some { c with chr := g }, reply := .done } ∧
        g.size = c.chr.size ∧
        (∀ j, g.read j = if Config.m0PpuWriteAccept = true ∧ j = a.toNat % 8192 then some v else c.chr.read j) ∧
        (Config.m0PpuWriteAccept = false → g = c.chr))

/-- After construction nothing but `INS` changes the presence of the Cartridge, its counts, identifier, mirroring
flag, Mapper and storage lengths, and under variant 0 its program storage (R180, R198). -/
def Obligations.CartridgeKeptByEveryOtherOperation : Prop :=
  ∀ (i : Instr) (s t : State), (∀ pb gb m v, i ≠ .ins pb gb m v) → exec i s = .next t → cartKept s.cart t.cart

/-- The image of a byte sequence reads it back, byte for byte and in order, and nothing beyond (R38, R52, R178); and
it is in canonical form. How a sequence is written down is the model's choice (log entry 13). -/
def Obligations.ImageHoldsSuppliedBytes : Prop :=
  ∀ (bs : List Byte), (Image.ofBytes bs).size = bs.length ∧ (∀ j, (Image.ofBytes bs).read j = bs[j]?) ∧
    (Image.ofBytes bs).wf = true

/-! ### The clock step (41_clock_dma.md) -/

/-- `CLK` (R140, R143, R148): the dot, then the interrupt forward, then the slot (in a step that starts with the tick
a multiple of 3: the DMA engine while active, else the Processor), then the tick. -/
def Obligations.ClockStepRunsFourPhases : Prop :=
  ∀ s : State,
    exec .clk s =
      let s2 := forwardNmi Config.env (ppuDot Config.env s)
      .next { (if s.tick % 3 ≠ 0 then s2
               else if s.dma.active then dmaSubStep Config.env s2
               else runProc Config.env (Config.procStep s2.proc) s2) with
              tick := s.tick + 1, reply := .done }

/-- Phase 1 (R141): the dot is the Picture Unit's call; it changes the Picture Unit and, of the slot, bytes of
graphics storage, and no other router state. -/
def Obligations.DotTouchesOnlyPictureUnit : Prop :=
  ∀ s : State,
    ppuDot Config.env s =
      { s with cart := (runPpu Config.env (Config.ppuTick s.ppu) s.cart s.ppu).2.1,
               ppu := (runPpu Config.env (Config.ppuTick s.ppu) s.cart s.ppu).2.2 } ∧
    cartKept s.cart (ppuDot Config.env s).cart

/-- Phase 2 (R142, R238), in every clock step: the pending condition is taken, and the Processor's line is asserted
once exactly if there was one; the Picture Unit may make port transactions while its condition is taken (D15), and
nothing else changes. In a step whose slot is the Processor's, the Processor then runs from that state, so it sees the
assertion in the slot of the same step; in any other step the line is left so. Who takes the condition is D13, and
that the line counts its assertions is the model's choice (log entry 5). That object memory stays and that no
condition is pending after the call are the model's choice (log entry 9). -/
def Obligations.InterruptForwardedOnce : Prop :=
  ∀ s : State,
    (let r := runPpu Config.env (asCall (Config.ppuTakeNmi s.ppu)) s.cart s.ppu
     forwardNmi Config.env s = { s with
       cart := r.2.1,
       ppu := { r.2.2 with nmiPending := false },
       proc := { s.proc with nmiAsserts := s.proc.nmiAsserts + if s.ppu.nmiPending then 1 else 0 } } ∧
     cartKept s.cart r.2.1 ∧ r.2.2.oam = s.ppu.oam) ∧
    (let f := forwardNmi Config.env (ppuDot Config.env s)
     let p := { s.proc with
       nmiAsserts := s.proc.nmiAsserts + if (ppuDot Config.env s).ppu.nmiPending then 1 else 0 }
     f.proc = p ∧ f.ppu.nmiPending = false ∧
     (s.tick % 3 = 0 → s.dma.active = false →
       exec .clk s = .next { runProc Config.env (Config.procStep p) f with tick := s.tick + 1, reply := .done }) ∧
     (s.tick % 3 ≠ 0 ∨ s.dma.active = true → ∃ t, exec .clk s = .next t ∧ t.proc = p) ∧
     (s.tick % 3 ≠ 0 → exec .clk s = .next { f with tick := s.tick + 1, reply := .done }))

/-- The dummy sub-step (R145): the dummy flag is cleared and nothing else is done. -/
def Obligations.DmaDummySlot : Prop :=
  ∀ s : State, s.tick % 3 = 0 → s.dma.active = true → s.dma.dummy = true →
    exec .clk s = .next { forwardNmi Config.env (ppuDot Config.env s) with
      dma := { s.dma with dummy := false }, tick := s.tick + 1, reply := .done }

/-- The read sub-step (R146): an ordinary processor-side read of the page and cursor into the staging byte, with that
read's side effects; the next sub-step writes (the phase is D6). -/
def Obligations.DmaReadSlot : Prop :=
  ∀ s : State, s.tick % 3 = 0 → s.dma.active = true → s.dma.dummy = false → s.dma.phase = false →
    exec .clk s =
      let r := busRead Config.env (BitVec.ofNat 16 (s.dma.page.toNat * 256 + s.dma.cursor.toNat))
        (forwardNmi Config.env (ppuDot Config.env s))
      .next { r.2 with dma := { s.dma with data := r.1, phase := true }, tick := s.tick + 1, reply := .done }

/-- The write sub-step (R147): the staging byte goes to object memory at the cursor, every other byte of it stays, the
cursor advances modulo 256, the next sub-step reads, and the transfer ends when the cursor was 255. The Picture Unit
may make port transactions while the byte is stored (D15); nothing else changes. The phase, which selects the sub-step
and is cleared, is D6. That the other bytes of object memory stay inside the call is the model's choice (log entry 9).
-/
def Obligations.DmaWriteSlot : Prop :=
  ∀ s : State, s.tick % 3 = 0 → s.dma.active = true → s.dma.dummy = false → s.dma.phase = true →
    let s2 := forwardNmi Config.env (ppuDot Config.env s)
    let r := runPpu Config.env (asCall (Config.ppuOamWrite s.dma.cursor s.dma.data s2.ppu)) s2.cart s2.ppu
    ∃ m, exec .clk s = .next { s2 with
        cart := r.2.1,
        ppu := { r.2.2 with oam := m },
        dma := { s.dma with cursor := BitVec.ofNat 8 ((s.dma.cursor.toNat + 1) % 256), phase := false,
                            active := decide (s.dma.cursor.toNat ≠ 255) },
        tick := s.tick + 1, reply := .done } ∧
      cartKept s2.cart r.2.1 ∧
      ∀ j, Memory.read Config.oamInit m j =
        if j = s.dma.cursor.toNat then s.dma.data else Memory.read Config.oamInit s2.ppu.oam j

/-- A transfer that is not restarted takes exactly 513 slots (R150): from a triggered transfer, sub-step k has run
after `stepsToSlot + 3k + 1` clock steps and leaves the cursor and phase R150's numbering gives; `active` becomes 0
with sub-step 512 and not before. Whatever the agents do. -/
def Obligations.TransferTakes513Slots : Prop :=
  ∀ s : State, s.Armed →
    (∀ n ≤ stepsToSlot s.tick + 1536, ∃ t, execs (List.replicate n .clk) s = .next t ∧
      t.dma.active = true ∧ t.dma.page = s.dma.page) ∧
    (∀ k ≤ 511, ∃ t, execs (List.replicate (stepsToSlot s.tick + 3 * k + 1) .clk) s = .next t ∧
      t.dma.dummy = false ∧ t.dma.cursor.toNat = k / 2 ∧ t.dma.phase = decide (k % 2 = 1)) ∧
    (∃ t, execs (List.replicate (stepsToSlot s.tick + 1537) .clk) s = .next t ∧
      t.dma = { s.dma with data := t.dma.data, active := false, dummy := false } ∧
      t.tick = s.tick + stepsToSlot s.tick + 1537)

/-- The result of a transfer (R152), for every pair of agents whose Picture Unit writes no object memory in its dots:
a triggered transfer from a RAM page, or from a page of the cartridge window, ends with object memory equal to the
bytes the bus reads at the page. That the Picture Unit writes no other byte of object memory inside `OamWrite` and
`PpuTakeNmi` is the model's choice (log entry 9). -/
def Obligations.TransferCopiesPage : Prop :=
  ∀ (E : Env) (s : State), (∀ u, oamSilent (E.ppuTick u)) → s.Armed →
    s.dma.page.toNat < 0x20 ∨ 0x41 ≤ s.dma.page.toNat →
    (clocks E (stepsToSlot s.tick + 1537) s).dma.active = false ∧
    ∀ j < 256, Memory.read E.oamInit (clocks E (stepsToSlot s.tick + 1537) s).ppu.oam j =
      (busRead E (BitVec.ofNat 16 (s.dma.page.toNat * 256 + j)) s).1

/-- No operation ends a transfer but the clock step whose slot makes the last write (R151, R31). -/
def Obligations.OnlyTheLastWriteEndsTransfer : Prop :=
  ∀ (i : Instr) (s t : State), exec i s = .next t → s.dma.active = true → t.dma.active = false →
    i = .clk ∧ s.tick % 3 = 0 ∧ s.dma.dummy = false ∧ s.dma.phase = true ∧ s.dma.cursor = 255

/-- In a clock step with no slot, and in one whose slot the DMA engine has, the Processor makes no transaction (R35
(c), R61, R143, R264). With no slot, RAM, the DMA state, the shift registers, strobe mode and the Processor's own
state stay. During a transfer what the slot does is the DMA sub-step and nothing else: RAM, strobe mode and the
Processor's own state stay, and the shift registers stay unless the sub-step is a read. -/
def Obligations.ProcessorStalledDuringTransfer : Prop :=
  ∀ s : State,
    (s.tick % 3 ≠ 0 → ∃ t, exec .clk s = .next t ∧ t.ram = s.ram ∧ t.dma = s.dma ∧ t.shift = s.shift ∧
      t.strobe = s.strobe ∧ t.proc.inner = s.proc.inner) ∧
    (s.tick % 3 = 0 → s.dma.active = true →
      exec .clk s = .next { dmaSubStep Config.env (forwardNmi Config.env (ppuDot Config.env s)) with
        tick := s.tick + 1, reply := .done } ∧
      ∃ t, exec .clk s = .next t ∧ t.ram = s.ram ∧ t.strobe = s.strobe ∧ t.proc.inner = s.proc.inner ∧
        t.dma.page = s.dma.page ∧ (s.dma.dummy = true ∨ s.dma.phase = true → t.shift = s.shift))

/-- What no clock step changes, whatever the agents do (R241, R180, R193): the live controller bytes, what the host
has issued, and the header, Mapper, program storage and lengths of the Cartridge. -/
def Obligations.ClockStepKeepsHostState : Prop :=
  ∀ s : State, ∃ t, exec .clk s = .next t ∧
    t.ctrl = s.ctrl ∧ t.pending = s.pending ∧ t.payload = s.payload ∧ cartKept s.cart t.cart

/-- `tick` counts completed clock steps: `CLK` adds 1 and no other operation writes it (R22, R148). -/
def Obligations.TickCountsClockSteps : Prop :=
  ∀ (i : Instr) (s t : State), exec i s = .next t → t.tick = if i = .clk then s.tick + 1 else s.tick

/-! ### Host operations (44_host_ops.md, 60_exceptions.md) -/

/-- `CTL` (R211): the live byte of one port, nothing else. -/
def Obligations.CtlSetsLiveByte : Prop :=
  ∀ (v : Byte) (s : State),
    exec (.ctl 0 v) s = .next { s with ctrl := { s.ctrl with port0 := v }, reply := .done } ∧
    exec (.ctl 1 v) s = .next { s with ctrl := { s.ctrl with port1 := v }, reply := .done }

/-- `INS` of a valid image (R171, R210, R170): the Cartridge the header and the payload give is inserted, whatever was
there before, and nothing else changes. -/
def Obligations.InsertInstallsCartridge : Prop :=
  ∀ (pb gb m : Byte) (v : Bool) (s : State),
    s.payload.loaderOk = true → 1 ≤ pb.toNat → s.payload.prg.size = pb.toNat * 16384 →
    s.payload.chr.size = gb.toNat * 8192 → m = 0 →
    exec (.ins pb gb m v) s = .next { s with
      cart := some { header := { prgBanks := pb, chrBanks := gb, mapperId := m, mirrorVertical := v },
                     prg := s.payload.prg, chr := s.payload.chr, mapper := .mapper0 pb gb },
      reply := .done }

/-- `INS` of an image that fails checks 1 to 3 raises `E_CART_INVALID` with the header, before the mapper is looked
at, and changes nothing else (R231, R171, R239; the checks and their order are D19, D21, D22). How the condition is
reported is the model's choice (log entry 10). -/
def Obligations.InvalidImageIsRefused : Prop :=
  ∀ (pb gb m : Byte) (v : Bool) (s : State),
    s.payload.loaderOk = false ∨ pb.toNat = 0 ∨ s.payload.prg.size ≠ pb.toNat * 16384 ∨
      s.payload.chr.size ≠ gb.toNat * 8192 →
    exec (.ins pb gb m v) s = .next { s with
      reply := .raised (.cartInvalid { prgBanks := pb, chrBanks := gb, mapperId := m, mirrorVertical := v }) }

/-- `INS` of an image that passes checks 1 to 3 with an identifier other than 0 raises `E_MAPPER_UNSUPPORTED` with the
identifier and changes nothing else (R232, R171, R191, R239; the table is D17). How the condition is reported is the
model's choice (log entry 10). -/
def Obligations.UnknownMapperIsRefused : Prop :=
  ∀ (pb gb m : Byte) (v : Bool) (s : State),
    s.payload.loaderOk = true → pb.toNat ≠ 0 → s.payload.prg.size = pb.toNat * 16384 →
    s.payload.chr.size = gb.toNat * 8192 → m ≠ 0 →
    exec (.ins pb gb m v) s = .next { s with reply := .raised (.mapperUnsupported m) }

/-- `exec` answers a next state for every operation from every state, and none but `INS` reports a condition (R235,
R113, R247). That a condition raised by `INS` is a next state too is the model's choice (log entry 10). -/
def Obligations.EveryOperationHasNextState : Prop :=
  ∀ (i : Instr) (s : State), ∃ t, exec i s = .next t ∧
    ((∀ pb gb m v, i ≠ .ins pb gb m v) → ∀ c, t.reply ≠ .raised c)

/-! ### The whole machine (10_state.md) -/

/-- The reset values the spec gives (R36, its own choice throughout: D25, D32). -/
def Obligations.ResetLeavesNothingActive : Prop :=
  State.reset.tick = 0 ∧ State.reset.dma.active = false ∧ State.reset.dma.dummy = false ∧
  State.reset.dma.phase = false ∧ State.reset.strobe = false ∧ State.reset.cart = none ∧
  (∀ j, Memory.read Config.ramInit State.reset.ram j = Config.ramInit j)

/-- The invariant holds at reset, whatever the draws are (log entries 1 to 3, 6). -/
def Obligations.ResetMeetsInvariant : Prop := State.reset.Inv Config.env

/-- Every step keeps the invariant (R35 (d), (f), R21, and the canonical forms). -/
def Obligations.StepKeepsInvariant : Prop :=
  ∀ s t : State, s.Inv Config.env → step s = .next t → t.Inv Config.env

/-- Every state a run of host operations reaches from reset meets the invariant, the host issuing whatever it likes
between steps (R35 (d), (f), R216). -/
def Obligations.ReachableStatesMeetInvariant : Prop := ∀ s : State, Reachable s → s.Inv Config.env

/-- A step goes on, unless the next thing the host has issued is a reserved word (R88) or is wider than a word (R64,
R80); then it is refused (R233). -/
def Obligations.StepStopsOnlyOnReservedWords : Prop :=
  ∀ s : State,
    (¬ Goes s ↔ ∃ w p rest, s.pending = .word w p :: rest ∧
      (2 ^ 28 ≤ w ∨ ReservedWord (BitVec.ofNat 28 w))) ∧
    (¬ Goes s → ∃ r, step s = .refused (.addrContract r))

/-- Equal memories are equal data: two byte arrays in canonical form that read alike are the same list. The form is
the model's choice (log entry 1). -/
def Obligations.CanonicalMemoriesAreEqual : Prop :=
  ∀ (init : Nat → Byte) (size : Nat) (m n : Memory), Memory.wf init size m = true → Memory.wf init size n = true →
    (∀ j, Memory.read init m j = Memory.read init n j) → m = n

/-! ### What the agents' calls do to the router -/

/-- The Processor's slot (R144, R115): each read it makes is the bus read every requester shares, its byte known
before the Processor goes on, each write the bus write, each from the state the one before it left; at the end the
Processor is what its step leaves. -/
def Obligations.ProcessorTransactionsAreBusTransactions : Prop :=
  ∀ (E : Env) (s : State),
    procSlot E s = runProc E (E.procStep s.proc) s ∧
    (∀ (a : Addr) (k : Byte → ProcProg),
      runProc E (.read a k) s = runProc E (k (busRead E a s).1) (busRead E a s).2) ∧
    (∀ (a : Addr) (v : Byte) (k : ProcProg), runProc E (.write a v k) s = runProc E k (busWrite E a v s)) ∧
    (∀ p : Processor, runProc E (.done p) s = { s with proc := p })

/-- Inside a call of the Picture Unit (R103, R104, R141): a read answers the byte `PRD` returns at that address, a
write leaves the slot as `PWR` leaves it, `mirror_vertical` is the inserted Cartridge's, a write of object memory
changes one byte of it, and at the end the Picture Unit is what the call leaves, its object memory as written. -/
def Obligations.PictureUnitTransactionsAreSlotTransactions : Prop :=
  (∀ (α : Type) (E : Env) (cart : Option Cartridge) (u : PictureUnit),
    (∀ (a : Addr) (k : Byte → PpuProg α),
      runPpu E (.read a k) cart u = runPpu E (k (slotPpuRead E cart a)) cart u) ∧
    (∀ (a : Addr) (v : Byte) (k : PpuProg α),
      runPpu E (.write a v k) cart u = runPpu E k (slotPpuWrite E cart a v) u) ∧
    (∀ k : Option Bool → PpuProg α,
      runPpu E (.mirror k) cart u = runPpu E (k (cart.map (fun c => c.header.mirrorVertical))) cart u) ∧
    (∀ (i v : Byte) (k : PpuProg α), ∃ m,
      runPpu E (.oam i v k) cart u = runPpu E k cart { u with oam := m } ∧
      ∀ j, Memory.read E.oamInit m j = if j = i.toNat then v else Memory.read E.oamInit u.oam j) ∧
    (∀ (nmi frame : Bool) (inner : Nat) (x : α),
      runPpu E (.done nmi frame inner x) cart u =
        (x, cart, { u with nmiPending := nmi, frameComplete := frame, inner := inner }))) ∧
  (∀ (a : Addr) (v : Byte) (s : State),
    exec (.prd a) s = .next { s with reply := .value (slotPpuRead Config.env s.cart a) } ∧
    exec (.pwr a v) s = .next { s with cart := slotPpuWrite Config.env s.cart a v, reply := .done })

/-- The progress of a transfer is an invariant of the clock step (R35 (g), R146, R147, R152): for every pair of agents
whose Picture Unit writes no object memory in its dots, if what the transfer has copied so far is right, it is right
after the step, whichever agent has the slot. That it writes no other byte inside `OamWrite` and `PpuTakeNmi` is the
model's choice (log entry 9). -/
def Obligations.ClockStepKeepsCopyProgress : Prop :=
  ∀ (E : Env) (s : State), (∀ u, oamSilent (E.ppuTick u)) → s.CopyInv E → (clock E s).CopyInv E

/-- A call of the Picture Unit with no writes of object memory (D15: `PpuTakeNmi`, `OamWrite`, `PpuFrameComplete`) makes
the transactions its program names, and leaves object memory and all of the slot but bytes of graphics storage alone;
so `OamWrite` changes exactly its byte of object memory (R10). -/
def Obligations.PortOnlyCallsKeepObjectMemory : Prop :=
  (∀ (a : Addr) (k : Byte → PortProg), asCall (.read a k) = .read a (fun b => asCall (k b))) ∧
  (∀ (a : Addr) (v : Byte) (k : PortProg), asCall (.write a v k) = .write a v (asCall k)) ∧
  (∀ k : Option Bool → PortProg, asCall (.mirror k) = .mirror (fun m => asCall (k m))) ∧
  (∀ (nmi frame : Bool) (inner : Nat), asCall (.done nmi frame inner) = .done nmi frame inner ()) ∧
  (∀ (E : Env) (p : PortProg) (cart : Option Cartridge) (u : PictureUnit),
    (runPpu E (asCall p) cart u).2.2.oam = u.oam ∧ cartKept cart (runPpu E (asCall p) cart u).2.1) ∧
  (∀ (E : Env) (i v : Byte) (s : State) (j : Nat),
    Memory.read E.oamInit (oamWrite E i v s).ppu.oam j =
      if j = i.toNat then v else Memory.read E.oamInit s.ppu.oam j)

/-- The host reads the "frame complete" signal (R10, R213): the reply is the signal as the call finds it; the Picture
Unit may make port transactions inside the call and change its own state (D15), its object memory stays, and nothing
else changes. That the host asks through the list of issued things is the model's choice (log entry 18). That object
memory stays is the model's choice too (log entry 9). -/
def Obligations.HostReadsFrameSignal : Prop :=
  ∀ (s : State) (rest : List HostOp), s.pending = .frameComplete :: rest →
    let r := runPpu Config.env (asCall (Config.ppuFrameComplete s.ppu)) s.cart s.ppu
    step s = .next { s with pending := rest, cart := r.2.1, ppu := r.2.2, reply := .signal s.ppu.frameComplete } ∧
    cartKept s.cart r.2.1 ∧ r.2.2.oam = s.ppu.oam
end

