-- ==== Sys2Proof/Laws/Decode.lean ====
section
/-! SUPPORT. The opcode table: no two rows overlap, so a row that fits a word is the row the decoder selects; what a
mask over an aligned block means for an address; and what each field of an assembled word reads back as. -/

namespace Sys2Proof

/-- No word fits both rows. -/
def Row.disjoint (r q : Row) : Prop := (r.mask &&& q.mask) &&& (r.pat ^^^ q.pat) ≠ 0

theorem Row.not_both {r q : Row} (h : r.disjoint q) {x : OpWord} (hr : r.fits x = true) : q.fits x = false := by
  by_contra hq
  simp only [Row.fits, beq_iff_eq, Bool.not_eq_false] at hr hq
  refine h ?_
  rw [← hr, ← hq]
  change _ = 0#28
  ext i hi
  simp only [BitVec.getElem_and, BitVec.getElem_xor, BitVec.getElem_zero]
  cases x[i] <;> cases r.mask[i] <;> cases q.mask[i] <;> rfl

/-- R87: no two rows of the table overlap. -/
theorem opcodeTable_disjoint : opcodeTable.Pairwise Row.disjoint := by
  unfold Row.disjoint; decide

theorem find_of_fits {rows : List Row} (hp : rows.Pairwise Row.disjoint) {r : Row} (hm : r ∈ rows) {x : OpWord}
    (hf : r.fits x = true) : rows.find? (fun q => q.fits x) = some r := by
  induction rows with
  | nil => cases hm
  | cons q qs ih =>
    rw [List.pairwise_cons] at hp
    rcases List.mem_cons.1 hm with rfl | hm'
    · simp [List.find?, hf]
    · have hq : q.fits x = false := by
        by_contra h
        have := Row.not_both (hp.1 r hm') (by simpa using h)
        simp [this] at hf
      simp only [List.find?, hq]
      exact ih hp.2 hm'

/-- A row of the table that fits a word is the one the decoder selects. -/
theorem decode_of_fits {r : Row} (hm : r ∈ opcodeTable) {x : OpWord} (hf : r.fits x = true) :
    decode x = .ok (r.build x) := by
  unfold decode
  rw [find_of_fits opcodeTable_disjoint hm hf]

/-- What the decoder reads is what some row that fits the word builds. -/
theorem decode_ok {x : OpWord} {i : Instr} (h : decode x = .ok i) :
    ∃ r ∈ opcodeTable, r.fits x = true ∧ i = r.build x := by
  unfold decode at h
  split at h
  · rename_i r hr
    exact ⟨r, List.mem_of_find?_eq_some hr, List.find?_some (p := fun q => Row.fits q x) hr, (Except.ok.inj h).symm⟩
  · cases h

@[simp] theorem fieldA_wordBus (k : BitVec 3) (w : BitVec 1) (a : Addr) (d : Byte) :
    fieldA (wordBus k w a d) = a := by
  unfold fieldA wordBus
  ext i hi
  simp only [BitVec.getElem_extractLsb', BitVec.getLsbD_append]
  have h1 : ¬ (8 + i < 8) := by omega
  have h2 : 8 + i - 8 < 16 := by omega
  have h3 : 8 + i - 8 = i := by omega
  simp only [h1, h2, if_false, if_true]
  rw [h3]
  exact BitVec.getLsbD_eq_getElem hi

@[simp] theorem fieldD_wordBus (k : BitVec 3) (w : BitVec 1) (a : Addr) (d : Byte) :
    fieldD (wordBus k w a d) = d := by
  unfold fieldD wordBus
  ext i hi
  simp only [BitVec.getElem_extractLsb', BitVec.getLsbD_append]
  have h1 : 0 + i < 8 := by omega
  have h3 : 0 + i = i := by omega
  simp only [h1, if_true]
  rw [h3]
  exact BitVec.getLsbD_eq_getElem hi

/-- Two concatenations are equal only part by part. -/
theorem append_parts {m n : Nat} {x x' : BitVec m} {y y' : BitVec n} (h : x ++ y = x' ++ y') :
    x = x' ∧ y = y' := by
  constructor
  · ext i hi
    have := congrArg (fun z => z.getLsbD (n + i)) h
    simp only [BitVec.getLsbD_append] at this
    have h1 : ¬ (n + i < n) := by omega
    have h2 : n + i - n = i := by omega
    simp only [h1, if_false, h2] at this
    simpa [BitVec.getLsbD_eq_getElem hi] using this
  · ext i hi
    have := congrArg (fun z => z.getLsbD i) h
    simp only [BitVec.getLsbD_append, hi, if_true] at this
    simpa [BitVec.getLsbD_eq_getElem hi] using this

/-- A bus row fits a word of its class and write bit exactly when the masked address is the row's base (R87). -/
theorem busRow_fits (k : BitVec 3) (w w' : BitVec 1) (base amask a : Addr) (d : Byte) (build : OpWord → Instr) :
    (busRow w base amask build).fits (wordBus k w' a d) =
      (decide (k = 0) && decide (w' = w) && decide (a &&& amask = base)) := by
  have key : wordBus k w' a d &&& ((0xF#4 ++ amask) ++ 0#8 : BitVec 28) =
      (((k ++ w') ++ (a &&& amask)) ++ 0#8 : BitVec 28) := by
    unfold wordBus
    rw [BitVec.and_append, BitVec.and_append]
    congr 1
    · congr 1
      have : (0xF#4) = BitVec.allOnes 4 := rfl
      rw [this, BitVec.and_allOnes]
    · simp
  simp only [Row.fits, busRow, key]
  rw [Bool.eq_iff_iff]
  simp only [beq_iff_eq, Bool.and_eq_true, decide_eq_true_eq]
  constructor
  · intro h
    obtain ⟨h1, -⟩ := append_parts h
    obtain ⟨h2, h3⟩ := append_parts h1
    obtain ⟨h4, h5⟩ := append_parts h2
    exact ⟨⟨h4, h5⟩, h3⟩
  · rintro ⟨⟨rfl, rfl⟩, rfl⟩; rfl

/-- Masking off the low `k` bits of an address rounds it down to a multiple of `2 ^ k`. -/
theorem and_blockMask_toNat (k : Nat) (a : Addr) :
    (a &&& (BitVec.allOnes 16 <<< k)).toNat = a.toNat / 2 ^ k * 2 ^ k := by
  have h : a &&& (BitVec.allOnes 16 <<< k) = (a >>> k) <<< k := by
    ext i hi
    simp only [BitVec.getElem_and, BitVec.getElem_shiftLeft, BitVec.getElem_allOnes, BitVec.getElem_ushiftRight]
    by_cases hik : i < k
    · simp [hik]
    · have : k + (i - k) = i := by omega
      simp [hik, this, BitVec.getLsbD_eq_getElem hi]
  rw [h, BitVec.toNat_shiftLeft, BitVec.toNat_ushiftRight, Nat.shiftLeft_eq, Nat.shiftRight_eq_div_pow]
  apply Nat.mod_eq_of_lt
  exact Nat.lt_of_le_of_lt (Nat.div_mul_le_self _ _) a.isLt

/-- A masked address is the base of an aligned block exactly when the address lies in the block (R87). -/
theorem and_blockMask_eq_iff (k : Nat) (a base : Addr) (hb : base.toNat % 2 ^ k = 0) :
    a &&& (BitVec.allOnes 16 <<< k) = base ↔ base.toNat ≤ a.toNat ∧ a.toNat < base.toNat + 2 ^ k := by
  rw [← BitVec.toNat_inj, and_blockMask_toNat]
  have hdiv := Nat.div_add_mod a.toNat (2 ^ k)
  have hlt := Nat.mod_lt a.toNat (Nat.two_pow_pos k)
  obtain ⟨q, hq⟩ : ∃ q, base.toNat = q * 2 ^ k := ⟨base.toNat / 2 ^ k, by
    have := Nat.div_add_mod base.toNat (2 ^ k); rw [hb] at this; rw [Nat.mul_comm]; omega⟩
  rw [hq, Nat.mul_comm (a.toNat / 2 ^ k)]
  constructor
  · intro h; omega
  · rintro ⟨h1, h2⟩
    have h3 : a.toNat / 2 ^ k = q := by
      apply Nat.div_eq_of_lt_le h1
      rw [Nat.succ_mul]; exact h2
    rw [h3, Nat.mul_comm]

/-- A bus row fits the words of the addresses in its block (R87). -/
theorem busRow_fits_block {w : BitVec 1} {base amask a : Addr} {d : Byte} {build : OpWord → Instr} (k : Nat)
    (hm : amask = BitVec.allOnes 16 <<< k) (hb : base.toNat % 2 ^ k = 0)
    (h : inBlock base.toNat (base.toNat + 2 ^ k - 1) a = true) :
    (busRow w base amask build).fits (wordBus 0 w a d) = true := by
  rw [busRow_fits]
  simp only [inBlock, Bool.and_eq_true, decide_eq_true_eq] at h
  have hk := Nat.two_pow_pos k
  simp only [decide_true, Bool.true_and, decide_eq_true_eq]
  rw [hm, and_blockMask_eq_iff k a base hb]
  omega

@[simp] theorem fieldP_wordCtl (p : PortNo) (v : Byte) : fieldP (wordCtl p v) = p := by
  unfold fieldP wordCtl
  ext i hi
  simp only [BitVec.getElem_extractLsb', BitVec.getLsbD_append]
  have h1 : ¬ (8 + i < 8) := by omega
  have h2 : 8 + i - 8 < 1 := by omega
  have h3 : 8 + i - 8 = i := by omega
  simp only [h1, h2, if_false, if_true]
  rw [h3]
  exact BitVec.getLsbD_eq_getElem hi

@[simp] theorem fieldD_wordCtl (p : PortNo) (v : Byte) : fieldD (wordCtl p v) = v := by
  unfold fieldD wordCtl
  ext i hi
  simp only [BitVec.getElem_extractLsb', BitVec.getLsbD_append]
  have h1 : 0 + i < 8 := by omega
  have h3 : 0 + i = i := by omega
  simp only [h1, if_true]
  rw [h3]
  exact BitVec.getLsbD_eq_getElem hi

/-- The `CTL` row fits the words R84 lays out. -/
theorem ctl_fits (p : PortNo) (v : Byte) : wordCtl p v &&& (0xFFFFE00 : OpWord) = 0x6000000 := by
  have hm : (0xFFFFE00 : OpWord) = (((BitVec.allOnes 3 ++ BitVec.allOnes 16) ++ 0#1) ++ 0#8 : BitVec 28) := by decide
  have hp : (0x6000000 : OpWord) = (((3#3 ++ 0#16) ++ 0#1) ++ 0#8 : BitVec 28) := by decide
  rw [hm, hp]
  unfold wordCtl
  rw [BitVec.and_append, BitVec.and_append, BitVec.and_append]
  simp

/-- The `INS` row fits the words R85 lays out. -/
theorem ins_fits (pb gb m : Byte) (v : Bool) : wordIns pb gb m v &&& (0xE000000 : OpWord) = 0x8000000 := by
  have hm : (0xE000000 : OpWord) = ((((BitVec.allOnes 3 ++ 0#8) ++ 0#8) ++ 0#8) ++ 0#1 : BitVec 28) := by decide
  have hp : (0x8000000 : OpWord) = ((((4#3 ++ 0#8) ++ 0#8) ++ 0#8) ++ 0#1 : BitVec 28) := by decide
  rw [hm, hp]
  unfold wordIns
  rw [BitVec.and_append, BitVec.and_append, BitVec.and_append, BitVec.and_append]
  simp

theorem getLsbD_wordIns (pb gb m : Byte) (v : Bool) (j : Nat) :
    (wordIns pb gb m v).getLsbD j =
      if j < 1 then v && decide (j = 0) else if j < 9 then m.getLsbD (j - 1) else if j < 17 then gb.getLsbD (j - 9)
      else if j < 25 then pb.getLsbD (j - 17) else (4#3).getLsbD (j - 25) := by
  unfold wordIns
  simp only [BitVec.getLsbD_append, BitVec.getLsbD_ofBool, Nat.sub_sub]
  repeat' split
  all_goals first | rfl | omega | (congr 1; omega) | skip
  all_goals simp_all

@[simp] theorem fieldPb_wordIns (pb gb m : Byte) (v : Bool) : fieldPb (wordIns pb gb m v) = pb := by
  unfold fieldPb
  ext i hi
  rw [BitVec.getElem_extractLsb', getLsbD_wordIns]
  have h1 : ¬ 17 + i < 1 := by omega
  have h2 : ¬ 17 + i < 9 := by omega
  have h3 : ¬ 17 + i < 17 := by omega
  have h4 : 17 + i < 25 := by omega
  have h5 : 17 + i - 17 = i := by omega
  simp only [h1, h2, h3, h4, h5, if_false, if_true]
  exact BitVec.getLsbD_eq_getElem hi

@[simp] theorem fieldGb_wordIns (pb gb m : Byte) (v : Bool) : fieldGb (wordIns pb gb m v) = gb := by
  unfold fieldGb
  ext i hi
  rw [BitVec.getElem_extractLsb', getLsbD_wordIns]
  have h1 : ¬ 9 + i < 1 := by omega
  have h2 : ¬ 9 + i < 9 := by omega
  have h3 : 9 + i < 17 := by omega
  have h5 : 9 + i - 9 = i := by omega
  simp only [h1, h2, h3, h5, if_false, if_true]
  exact BitVec.getLsbD_eq_getElem hi

@[simp] theorem fieldM_wordIns (pb gb m : Byte) (v : Bool) : fieldM (wordIns pb gb m v) = m := by
  unfold fieldM
  ext i hi
  rw [BitVec.getElem_extractLsb', getLsbD_wordIns]
  have h1 : ¬ 1 + i < 1 := by omega
  have h2 : 1 + i < 9 := by omega
  have h5 : 1 + i - 1 = i := by omega
  simp only [h1, h2, h5, if_false, if_true]
  exact BitVec.getLsbD_eq_getElem hi

@[simp] theorem fieldV_wordIns (pb gb m : Byte) (v : Bool) : fieldV (wordIns pb gb m v) = v := by
  unfold fieldV
  rw [getLsbD_wordIns]
  simp

end Sys2Proof
end

