-- ==== Sys2Proof/Laws/Dispatch.lean ====
section
/-! SUPPORT. The operation an address selects, range by range (R50, R87): to prove something of `readOp a` or
`writeOp a d`, prove it of each range's operation. -/

namespace Sys2Proof.Machine

theorem ite_ind {α : Type} {P : α → Prop} {c : Prop} [Decidable c] {x y : α} (h1 : c → P x) (h2 : ¬ c → P y) :
    P (if c then x else y) := by
  by_cases h : c
  · rw [if_pos h]; exact h1 h
  · rw [if_neg h]; exact h2 h

theorem readOp_cases {P : Instr → Prop} (a : Addr)
    (h0 : a.toNat ≤ 0x1FFF → P (.rdRam a))
    (h1 : 0x2000 ≤ a.toNat → a.toNat ≤ 0x3FFF → P (.rdPpuReg a))
    (h2 : 0x4000 ≤ a.toNat → a.toNat ≤ 0x400F → P (.rdOpen4000 a))
    (h3 : 0x4010 ≤ a.toNat → a.toNat ≤ 0x4013 → P (.rdOpen4010 a))
    (h4 : 0x4014 ≤ a.toNat → a.toNat ≤ 0x4014 → P (.rdOamDma))
    (h5 : 0x4015 ≤ a.toNat → a.toNat ≤ 0x4015 → P (.rdOpen4015))
    (h6 : 0x4016 ≤ a.toNat → a.toNat ≤ 0x4017 → P (.rdCtrl (BitVec.ofNat 1 (a.toNat % 2))))
    (h7 : 0x4018 ≤ a.toNat → a.toNat ≤ 0x401F → P (.rdOpen4018 a))
    (h8 : 0x4020 ≤ a.toNat → a.toNat ≤ 0x403F → P (.rdCart4020 a))
    (h9 : 0x4040 ≤ a.toNat → a.toNat ≤ 0x407F → P (.rdCart4040 a))
    (h10 : 0x4080 ≤ a.toNat → a.toNat ≤ 0x40FF → P (.rdCart4080 a))
    (h11 : 0x4100 ≤ a.toNat → a.toNat ≤ 0x41FF → P (.rdCart4100 a))
    (h12 : 0x4200 ≤ a.toNat → a.toNat ≤ 0x43FF → P (.rdCart4200 a))
    (h13 : 0x4400 ≤ a.toNat → a.toNat ≤ 0x47FF → P (.rdCart4400 a))
    (h14 : 0x4800 ≤ a.toNat → a.toNat ≤ 0x4FFF → P (.rdCart4800 a))
    (h15 : 0x5000 ≤ a.toNat → a.toNat ≤ 0x5FFF → P (.rdCart5000 a))
    (h16 : 0x6000 ≤ a.toNat → a.toNat ≤ 0x7FFF → P (.rdCart6000 a))
    (h17 : 0x8000 ≤ a.toNat → P (.rdCart8000 a)) :
    P (readOp a) := by
  unfold readOp
  refine ite_ind (fun g0 => h0 g0) (fun g0 => ?_)
  refine ite_ind (fun g1 => h1 (by omega) g1) (fun g1 => ?_)
  refine ite_ind (fun g2 => h2 (by omega) g2) (fun g2 => ?_)
  refine ite_ind (fun g3 => h3 (by omega) g3) (fun g3 => ?_)
  refine ite_ind (fun g4 => h4 (by omega) g4) (fun g4 => ?_)
  refine ite_ind (fun g5 => h5 (by omega) g5) (fun g5 => ?_)
  refine ite_ind (fun g6 => h6 (by omega) g6) (fun g6 => ?_)
  refine ite_ind (fun g7 => h7 (by omega) g7) (fun g7 => ?_)
  refine ite_ind (fun g8 => h8 (by omega) g8) (fun g8 => ?_)
  refine ite_ind (fun g9 => h9 (by omega) g9) (fun g9 => ?_)
  refine ite_ind (fun g10 => h10 (by omega) g10) (fun g10 => ?_)
  refine ite_ind (fun g11 => h11 (by omega) g11) (fun g11 => ?_)
  refine ite_ind (fun g12 => h12 (by omega) g12) (fun g12 => ?_)
  refine ite_ind (fun g13 => h13 (by omega) g13) (fun g13 => ?_)
  refine ite_ind (fun g14 => h14 (by omega) g14) (fun g14 => ?_)
  refine ite_ind (fun g15 => h15 (by omega) g15) (fun g15 => ?_)
  refine ite_ind (fun g16 => h16 (by omega) g16) (fun g16 => ?_)
  exact h17 (by omega)

theorem writeOp_cases {P : Instr → Prop} (a : Addr) (d : Byte)
    (h0 : a.toNat ≤ 0x1FFF → P (.wrRam a d))
    (h1 : 0x2000 ≤ a.toNat → a.toNat ≤ 0x3FFF → P (.wrPpuReg a d))
    (h2 : 0x4000 ≤ a.toNat → a.toNat ≤ 0x400F → P (.wrOpen4000 a d))
    (h3 : 0x4010 ≤ a.toNat → a.toNat ≤ 0x4013 → P (.wrOpen4010 a d))
    (h4 : 0x4014 ≤ a.toNat → a.toNat ≤ 0x4014 → P (.wrOamDma d))
    (h5 : 0x4015 ≤ a.toNat → a.toNat ≤ 0x4015 → P (.wrOpen4015 d))
    (h6 : 0x4016 ≤ a.toNat → a.toNat ≤ 0x4016 → P (.wrStrobe d))
    (h7 : 0x4017 ≤ a.toNat → a.toNat ≤ 0x4017 → P (.wrOpen4017 d))
    (h8 : 0x4018 ≤ a.toNat → a.toNat ≤ 0x401F → P (.wrOpen4018 a d))
    (h9 : 0x4020 ≤ a.toNat → a.toNat ≤ 0x403F → P (.wrCart4020 a d))
    (h10 : 0x4040 ≤ a.toNat → a.toNat ≤ 0x407F → P (.wrCart4040 a d))
    (h11 : 0x4080 ≤ a.toNat → a.toNat ≤ 0x40FF → P (.wrCart4080 a d))
    (h12 : 0x4100 ≤ a.toNat → a.toNat ≤ 0x41FF → P (.wrCart4100 a d))
    (h13 : 0x4200 ≤ a.toNat → a.toNat ≤ 0x43FF → P (.wrCart4200 a d))
    (h14 : 0x4400 ≤ a.toNat → a.toNat ≤ 0x47FF → P (.wrCart4400 a d))
    (h15 : 0x4800 ≤ a.toNat → a.toNat ≤ 0x4FFF → P (.wrCart4800 a d))
    (h16 : 0x5000 ≤ a.toNat → a.toNat ≤ 0x5FFF → P (.wrCart5000 a d))
    (h17 : 0x6000 ≤ a.toNat → a.toNat ≤ 0x7FFF → P (.wrCart6000 a d))
    (h18 : 0x8000 ≤ a.toNat → P (.wrCart8000 a d)) :
    P (writeOp a d) := by
  unfold writeOp
  refine ite_ind (fun g0 => h0 g0) (fun g0 => ?_)
  refine ite_ind (fun g1 => h1 (by omega) g1) (fun g1 => ?_)
  refine ite_ind (fun g2 => h2 (by omega) g2) (fun g2 => ?_)
  refine ite_ind (fun g3 => h3 (by omega) g3) (fun g3 => ?_)
  refine ite_ind (fun g4 => h4 (by omega) g4) (fun g4 => ?_)
  refine ite_ind (fun g5 => h5 (by omega) g5) (fun g5 => ?_)
  refine ite_ind (fun g6 => h6 (by omega) g6) (fun g6 => ?_)
  refine ite_ind (fun g7 => h7 (by omega) g7) (fun g7 => ?_)
  refine ite_ind (fun g8 => h8 (by omega) g8) (fun g8 => ?_)
  refine ite_ind (fun g9 => h9 (by omega) g9) (fun g9 => ?_)
  refine ite_ind (fun g10 => h10 (by omega) g10) (fun g10 => ?_)
  refine ite_ind (fun g11 => h11 (by omega) g11) (fun g11 => ?_)
  refine ite_ind (fun g12 => h12 (by omega) g12) (fun g12 => ?_)
  refine ite_ind (fun g13 => h13 (by omega) g13) (fun g13 => ?_)
  refine ite_ind (fun g14 => h14 (by omega) g14) (fun g14 => ?_)
  refine ite_ind (fun g15 => h15 (by omega) g15) (fun g15 => ?_)
  refine ite_ind (fun g16 => h16 (by omega) g16) (fun g16 => ?_)
  refine ite_ind (fun g17 => h17 (by omega) g17) (fun g17 => ?_)
  exact h18 (by omega)

end Sys2Proof.Machine
end

