-- ==== Sys2Proof/Laws/Memory.lean ====
section
/-! SUPPORT. The laws of byte arrays: a read after a write, the canonical form kept by every operation, and canonical
arrays that read alike are equal. -/

namespace Sys2Proof.Machine

variable {init : Nat → Byte} {size : Nat}

@[simp] theorem Memory.read_nil (a : Nat) : Memory.read init [] a = init a := rfl

theorem Memory.read_insert (m : Memory) (a b : Nat) (v : Byte) :
    Memory.read init (Memory.insert m a v) b = if b = a then v else Memory.read init m b := by
  induction m with
  | nil => simp [Memory.insert, Memory.read, eq_comm]
  | cons c m ih =>
    simp only [Memory.insert]
    split
    · simp [Memory.read, eq_comm]
    · split
      · rename_i h; subst h
        by_cases hb : b = c.1 <;> simp [Memory.read, hb, eq_comm]
      · rename_i h1 h2
        simp only [Memory.read, ih]
        by_cases hc : c.1 = b
        · subst hc; simp [Ne.symm h2]
        · simp [hc]

theorem Memory.read_erase (m : Memory) (a b : Nat) :
    Memory.read init (Memory.erase m a) b = if b = a then init a else Memory.read init m b := by
  induction m with
  | nil => by_cases h : b = a <;> simp [Memory.erase, h]
  | cons c m ih =>
    simp only [Memory.erase]
    split
    · rename_i h
      rw [ih]
      by_cases hb : b = a
      · simp [hb]
      · simp [hb, Memory.read, h, Ne.symm hb]
    · rename_i h
      simp only [Memory.read, ih]
      by_cases hc : c.1 = b
      · subst hc; simp [h]
      · simp [hc]

/-- What a write does to every read. -/
theorem Memory.read_write (m : Memory) (a b : Nat) (v : Byte) :
    Memory.read init (Memory.write init m a v) b = if b = a then v else Memory.read init m b := by
  unfold Memory.write
  split
  · rename_i h; rw [Memory.read_erase, ← h]
  · exact Memory.read_insert m a b v

@[simp] theorem Memory.read_write_same (m : Memory) (a : Nat) (v : Byte) :
    Memory.read init (Memory.write init m a v) a = v := by simp [Memory.read_write]

theorem Memory.read_write_other (m : Memory) {a b : Nat} (v : Byte) (h : b ≠ a) :
    Memory.read init (Memory.write init m a v) b = Memory.read init m b := by simp [Memory.read_write, h]

theorem Memory.rising_mono {lo lo' : Nat} {m : Memory} (h : lo' ≤ lo) (hm : Memory.rising lo m = true) :
    Memory.rising lo' m = true := by
  cases m with
  | nil => rfl
  | cons c m =>
    simp only [Memory.rising, Bool.and_eq_true, decide_eq_true_eq] at hm ⊢
    exact ⟨by omega, hm.2⟩

theorem Memory.rising_insert {lo : Nat} {m : Memory} {a : Nat} (v : Byte) (hlo : lo ≤ a)
    (hm : Memory.rising lo m = true) : Memory.rising lo (Memory.insert m a v) = true := by
  induction m generalizing lo with
  | nil => simp [Memory.insert, Memory.rising, hlo]
  | cons c m ih =>
    simp only [Memory.rising, Bool.and_eq_true, decide_eq_true_eq] at hm
    simp only [Memory.insert]
    split
    · simp only [Memory.rising, Bool.and_eq_true, decide_eq_true_eq]
      exact ⟨hlo, by omega, hm.2⟩
    · split
      · rename_i h; subst h
        simp only [Memory.rising, Bool.and_eq_true, decide_eq_true_eq]
        exact ⟨hlo, hm.2⟩
      · simp only [Memory.rising, Bool.and_eq_true, decide_eq_true_eq]
        exact ⟨hm.1, ih (by omega) hm.2⟩

theorem Memory.rising_erase {lo : Nat} {m : Memory} (a : Nat) (hm : Memory.rising lo m = true) :
    Memory.rising lo (Memory.erase m a) = true := by
  induction m generalizing lo with
  | nil => rfl
  | cons c m ih =>
    simp only [Memory.rising, Bool.and_eq_true, decide_eq_true_eq] at hm
    simp only [Memory.erase]
    split
    · exact Memory.rising_mono (by omega) (ih hm.2)
    · simp only [Memory.rising, Bool.and_eq_true, decide_eq_true_eq]
      exact ⟨hm.1, ih hm.2⟩

theorem Memory.proper_insert {m : Memory} {a : Nat} {v : Byte} (hv : v ≠ init a) (ha : a < size)
    (hm : Memory.proper init size m = true) : Memory.proper init size (Memory.insert m a v) = true := by
  induction m with
  | nil => simp [Memory.insert, Memory.proper, hv, ha]
  | cons c m ih =>
    have hm' := hm
    simp only [Memory.proper, Bool.and_eq_true, decide_eq_true_eq] at hm
    simp only [Memory.insert]
    split
    · simp only [Memory.proper, Bool.and_eq_true, decide_eq_true_eq]
      exact ⟨⟨hv, ha⟩, hm⟩
    · split
      · simp only [Memory.proper, Bool.and_eq_true, decide_eq_true_eq]
        exact ⟨⟨hv, ha⟩, hm.2⟩
      · simp only [Memory.proper, Bool.and_eq_true, decide_eq_true_eq]
        exact ⟨hm.1, ih hm.2⟩

theorem Memory.proper_erase {m : Memory} (a : Nat) (hm : Memory.proper init size m = true) :
    Memory.proper init size (Memory.erase m a) = true := by
  induction m with
  | nil => rfl
  | cons c m ih =>
    simp only [Memory.proper, Bool.and_eq_true, decide_eq_true_eq] at hm
    simp only [Memory.erase]
    split
    · exact ih hm.2
    · simp only [Memory.proper, Bool.and_eq_true, decide_eq_true_eq]
      exact ⟨hm.1, ih hm.2⟩

@[simp] theorem Memory.wf_nil : Memory.wf init size [] = true := rfl

/-- A write inside the array keeps the canonical form. -/
theorem Memory.wf_write {m : Memory} {a : Nat} (v : Byte) (ha : a < size) (hm : Memory.wf init size m = true) :
    Memory.wf init size (Memory.write init m a v) = true := by
  simp only [Memory.wf, Bool.and_eq_true] at hm ⊢
  unfold Memory.write
  split
  · exact ⟨Memory.rising_erase a hm.1, Memory.proper_erase a hm.2⟩
  · rename_i h
    exact ⟨Memory.rising_insert v (Nat.zero_le a) hm.1, Memory.proper_insert h ha hm.2⟩

theorem Memory.read_of_rising_lt {lo a : Nat} {m : Memory} (hm : Memory.rising lo m = true) (h : a < lo) :
    Memory.read init m a = init a := by
  induction m generalizing lo with
  | nil => rfl
  | cons c m ih =>
    simp only [Memory.rising, Bool.and_eq_true, decide_eq_true_eq] at hm
    have hc : c.1 ≠ a := by omega
    simp only [Memory.read, hc, if_false]
    exact ih hm.2 (by omega)

theorem Image.size_write (i : Image) (off : Nat) (v : Byte) : (i.write off v).size = i.size := by
  unfold Image.write; split <;> rfl

theorem Image.wf_write {i : Image} (off : Nat) (v : Byte) (h : i.wf = true) : (i.write off v).wf = true := by
  unfold Image.write
  split
  · exact Memory.wf_write v ‹_› h
  · exact h

theorem Image.read_write (i : Image) (off b : Nat) (v : Byte) :
    (i.write off v).read b = if b = off ∧ off < i.size then some v else i.read b := by
  unfold Image.write
  split
  · rename_i h
    simp only [Image.read, Memory.read_write]
    by_cases hb : b = off
    · subst hb; simp [h]
    · simp [hb]
  · rename_i h; simp [h]

end Sys2Proof.Machine
end

