-- ==== Sys2Proof/Laws/Operands.lean ====
section
/-! SUPPORT. What each operand is in numbers: the masks are remainders by powers of two (R86), and the one byte shift. -/

namespace Sys2Proof.Machine

theorem ramIndex_eq (a : Addr) : ramIndex a = a.toNat % 2048 := by
  simp only [ramIndex, BitVec.toNat_and]
  exact Nat.and_two_pow_sub_one_eq_mod a.toNat 11

theorem ramIndex_lt (a : Addr) : ramIndex a < 2048 := by
  rw [ramIndex_eq]; exact Nat.mod_lt _ (by decide)

theorem ppuRegOf_toNat (a : Addr) : (ppuRegOf a).toNat = a.toNat % 8 := by
  have h : (a &&& 0x0007#16).toNat = a.toNat % 8 := by
    simp only [BitVec.toNat_and]; exact Nat.and_two_pow_sub_one_eq_mod a.toNat 3
  simp only [ppuRegOf, BitVec.toNat_setWidth, h]; omega

theorem portOf_toNat (a : Addr) : (portOf a).toNat = a.toNat % 2 := by
  have h : (a &&& 0x0001#16).toNat = a.toNat % 2 := by
    simp only [BitVec.toNat_and]; exact Nat.and_two_pow_sub_one_eq_mod a.toNat 1
  simp only [portOf, BitVec.toNat_setWidth, h]; omega

theorem prgOffset_eq (n : Byte) (a : Addr) :
    prgOffset n a = if n = 1 then a.toNat % 16384 else a.toNat % 32768 := by
  unfold prgOffset
  split
  · simp only [BitVec.toNat_and]; exact Nat.and_two_pow_sub_one_eq_mod a.toNat 14
  · simp only [BitVec.toNat_and]; exact Nat.and_two_pow_sub_one_eq_mod a.toNat 15

theorem chrOffset_eq (a : Addr) : chrOffset a = a.toNat % 8192 := by
  simp only [chrOffset, BitVec.toNat_and]
  exact Nat.and_two_pow_sub_one_eq_mod a.toNat 13

/-- R192 (b): with at least one bank the program offset is inside storage. -/
theorem prgOffset_lt (n : Byte) (a : Addr) (h : n ≠ 0) : prgOffset n a < prgLength n := by
  rw [prgOffset_eq]
  unfold prgLength
  have h0 : n.toNat ≠ 0 := fun e => h (BitVec.eq_of_toNat_eq (by simpa using e))
  split
  · rename_i h1; subst h1; simp; omega
  · rename_i h1
    have h1' : n.toNat ≠ 1 := fun e => h1 (BitVec.eq_of_toNat_eq (by simpa using e))
    have : 2 * 16384 ≤ n.toNat * 16384 := Nat.mul_le_mul_right _ (by omega)
    omega

/-- With at least one bank the graphics offset is inside storage (R194). -/
theorem chrOffset_lt (n : Byte) (a : Addr) (h : n ≠ 0) : chrOffset a < chrLength n := by
  rw [chrOffset_eq]
  unfold chrLength
  have h0 : n.toNat ≠ 0 := fun e => h (BitVec.eq_of_toNat_eq (by simpa using e))
  omega

theorem dmaAddr_toNat (page cursor : Byte) :
    (dmaAddr page cursor).toNat = page.toNat * 256 + cursor.toNat := by
  have hp := page.isLt
  have hc := cursor.isLt
  have h1 : (page.setWidth 16 <<< 8 : BitVec 16).toNat = page.toNat <<< 8 := by
    simp only [BitVec.toNat_shiftLeft, BitVec.toNat_setWidth, Nat.shiftLeft_eq]; omega
  have h2 : (cursor.setWidth 16 : BitVec 16).toNat = cursor.toNat := by
    simp only [BitVec.toNat_setWidth]; omega
  rw [dmaAddr, BitVec.toNat_or, h1, h2, ← Nat.shiftLeft_add_eq_or_of_lt hc, Nat.shiftLeft_eq]

@[simp] theorem PortBytes.get_set_same (x : PortBytes) (p : PortNo) (v : Byte) : (x.set p v).get p = v := by
  unfold PortBytes.set PortBytes.get; split <;> rfl

theorem PortBytes.get_set_other (x : PortBytes) {p q : PortNo} (v : Byte) (h : q ≠ p) :
    (x.set p v).get q = x.get q := by
  unfold PortBytes.set PortBytes.get
  by_cases hp : p = 0
  · subst hp
    have hq : ¬ q = 0 := h
    simp only [if_true, hq, if_false]
  · simp only [hp, if_false]
    by_cases hq : q = 0
    · simp [hq]
    · exact absurd ((show ∀ x y : PortNo, x ≠ 0 → y ≠ 0 → x = y by decide) q p hq hp) h

end Sys2Proof.Machine
end

