-- ==== Sys2Proof/Laws/State.lean ====
section
/-! SUPPORT. One lemma per field per update of State. -/

namespace Sys2Proof.Machine

@[simp] theorem State.setRam_ram (s : State) (x : Memory) : (s.setRam x).ram = x := rfl
@[simp] theorem State.setRam_tick (s : State) (x : Memory) : (s.setRam x).tick = s.tick := rfl
@[simp] theorem State.setRam_dma (s : State) (x : Memory) : (s.setRam x).dma = s.dma := rfl
@[simp] theorem State.setRam_ctrl (s : State) (x : Memory) : (s.setRam x).ctrl = s.ctrl := rfl
@[simp] theorem State.setRam_shift (s : State) (x : Memory) : (s.setRam x).shift = s.shift := rfl
@[simp] theorem State.setRam_strobe (s : State) (x : Memory) : (s.setRam x).strobe = s.strobe := rfl
@[simp] theorem State.setRam_cart (s : State) (x : Memory) : (s.setRam x).cart = s.cart := rfl
@[simp] theorem State.setRam_ppu (s : State) (x : Memory) : (s.setRam x).ppu = s.ppu := rfl
@[simp] theorem State.setRam_proc (s : State) (x : Memory) : (s.setRam x).proc = s.proc := rfl
@[simp] theorem State.setRam_pending (s : State) (x : Memory) : (s.setRam x).pending = s.pending := rfl
@[simp] theorem State.setRam_payload (s : State) (x : Memory) : (s.setRam x).payload = s.payload := rfl
@[simp] theorem State.setRam_reply (s : State) (x : Memory) : (s.setRam x).reply = s.reply := rfl

@[simp] theorem State.setTick_ram (s : State) (x : Nat) : (s.setTick x).ram = s.ram := rfl
@[simp] theorem State.setTick_tick (s : State) (x : Nat) : (s.setTick x).tick = x := rfl
@[simp] theorem State.setTick_dma (s : State) (x : Nat) : (s.setTick x).dma = s.dma := rfl
@[simp] theorem State.setTick_ctrl (s : State) (x : Nat) : (s.setTick x).ctrl = s.ctrl := rfl
@[simp] theorem State.setTick_shift (s : State) (x : Nat) : (s.setTick x).shift = s.shift := rfl
@[simp] theorem State.setTick_strobe (s : State) (x : Nat) : (s.setTick x).strobe = s.strobe := rfl
@[simp] theorem State.setTick_cart (s : State) (x : Nat) : (s.setTick x).cart = s.cart := rfl
@[simp] theorem State.setTick_ppu (s : State) (x : Nat) : (s.setTick x).ppu = s.ppu := rfl
@[simp] theorem State.setTick_proc (s : State) (x : Nat) : (s.setTick x).proc = s.proc := rfl
@[simp] theorem State.setTick_pending (s : State) (x : Nat) : (s.setTick x).pending = s.pending := rfl
@[simp] theorem State.setTick_payload (s : State) (x : Nat) : (s.setTick x).payload = s.payload := rfl
@[simp] theorem State.setTick_reply (s : State) (x : Nat) : (s.setTick x).reply = s.reply := rfl

@[simp] theorem State.setDma_ram (s : State) (x : Dma) : (s.setDma x).ram = s.ram := rfl
@[simp] theorem State.setDma_tick (s : State) (x : Dma) : (s.setDma x).tick = s.tick := rfl
@[simp] theorem State.setDma_dma (s : State) (x : Dma) : (s.setDma x).dma = x := rfl
@[simp] theorem State.setDma_ctrl (s : State) (x : Dma) : (s.setDma x).ctrl = s.ctrl := rfl
@[simp] theorem State.setDma_shift (s : State) (x : Dma) : (s.setDma x).shift = s.shift := rfl
@[simp] theorem State.setDma_strobe (s : State) (x : Dma) : (s.setDma x).strobe = s.strobe := rfl
@[simp] theorem State.setDma_cart (s : State) (x : Dma) : (s.setDma x).cart = s.cart := rfl
@[simp] theorem State.setDma_ppu (s : State) (x : Dma) : (s.setDma x).ppu = s.ppu := rfl
@[simp] theorem State.setDma_proc (s : State) (x : Dma) : (s.setDma x).proc = s.proc := rfl
@[simp] theorem State.setDma_pending (s : State) (x : Dma) : (s.setDma x).pending = s.pending := rfl
@[simp] theorem State.setDma_payload (s : State) (x : Dma) : (s.setDma x).payload = s.payload := rfl
@[simp] theorem State.setDma_reply (s : State) (x : Dma) : (s.setDma x).reply = s.reply := rfl

@[simp] theorem State.setCtrl_ram (s : State) (x : PortBytes) : (s.setCtrl x).ram = s.ram := rfl
@[simp] theorem State.setCtrl_tick (s : State) (x : PortBytes) : (s.setCtrl x).tick = s.tick := rfl
@[simp] theorem State.setCtrl_dma (s : State) (x : PortBytes) : (s.setCtrl x).dma = s.dma := rfl
@[simp] theorem State.setCtrl_ctrl (s : State) (x : PortBytes) : (s.setCtrl x).ctrl = x := rfl
@[simp] theorem State.setCtrl_shift (s : State) (x : PortBytes) : (s.setCtrl x).shift = s.shift := rfl
@[simp] theorem State.setCtrl_strobe (s : State) (x : PortBytes) : (s.setCtrl x).strobe = s.strobe := rfl
@[simp] theorem State.setCtrl_cart (s : State) (x : PortBytes) : (s.setCtrl x).cart = s.cart := rfl
@[simp] theorem State.setCtrl_ppu (s : State) (x : PortBytes) : (s.setCtrl x).ppu = s.ppu := rfl
@[simp] theorem State.setCtrl_proc (s : State) (x : PortBytes) : (s.setCtrl x).proc = s.proc := rfl
@[simp] theorem State.setCtrl_pending (s : State) (x : PortBytes) : (s.setCtrl x).pending = s.pending := rfl
@[simp] theorem State.setCtrl_payload (s : State) (x : PortBytes) : (s.setCtrl x).payload = s.payload := rfl
@[simp] theorem State.setCtrl_reply (s : State) (x : PortBytes) : (s.setCtrl x).reply = s.reply := rfl

@[simp] theorem State.setShift_ram (s : State) (x : PortBytes) : (s.setShift x).ram = s.ram := rfl
@[simp] theorem State.setShift_tick (s : State) (x : PortBytes) : (s.setShift x).tick = s.tick := rfl
@[simp] theorem State.setShift_dma (s : State) (x : PortBytes) : (s.setShift x).dma = s.dma := rfl
@[simp] theorem State.setShift_ctrl (s : State) (x : PortBytes) : (s.setShift x).ctrl = s.ctrl := rfl
@[simp] theorem State.setShift_shift (s : State) (x : PortBytes) : (s.setShift x).shift = x := rfl
@[simp] theorem State.setShift_strobe (s : State) (x : PortBytes) : (s.setShift x).strobe = s.strobe := rfl
@[simp] theorem State.setShift_cart (s : State) (x : PortBytes) : (s.setShift x).cart = s.cart := rfl
@[simp] theorem State.setShift_ppu (s : State) (x : PortBytes) : (s.setShift x).ppu = s.ppu := rfl
@[simp] theorem State.setShift_proc (s : State) (x : PortBytes) : (s.setShift x).proc = s.proc := rfl
@[simp] theorem State.setShift_pending (s : State) (x : PortBytes) : (s.setShift x).pending = s.pending := rfl
@[simp] theorem State.setShift_payload (s : State) (x : PortBytes) : (s.setShift x).payload = s.payload := rfl
@[simp] theorem State.setShift_reply (s : State) (x : PortBytes) : (s.setShift x).reply = s.reply := rfl

@[simp] theorem State.setStrobe_ram (s : State) (x : Bool) : (s.setStrobe x).ram = s.ram := rfl
@[simp] theorem State.setStrobe_tick (s : State) (x : Bool) : (s.setStrobe x).tick = s.tick := rfl
@[simp] theorem State.setStrobe_dma (s : State) (x : Bool) : (s.setStrobe x).dma = s.dma := rfl
@[simp] theorem State.setStrobe_ctrl (s : State) (x : Bool) : (s.setStrobe x).ctrl = s.ctrl := rfl
@[simp] theorem State.setStrobe_shift (s : State) (x : Bool) : (s.setStrobe x).shift = s.shift := rfl
@[simp] theorem State.setStrobe_strobe (s : State) (x : Bool) : (s.setStrobe x).strobe = x := rfl
@[simp] theorem State.setStrobe_cart (s : State) (x : Bool) : (s.setStrobe x).cart = s.cart := rfl
@[simp] theorem State.setStrobe_ppu (s : State) (x : Bool) : (s.setStrobe x).ppu = s.ppu := rfl
@[simp] theorem State.setStrobe_proc (s : State) (x : Bool) : (s.setStrobe x).proc = s.proc := rfl
@[simp] theorem State.setStrobe_pending (s : State) (x : Bool) : (s.setStrobe x).pending = s.pending := rfl
@[simp] theorem State.setStrobe_payload (s : State) (x : Bool) : (s.setStrobe x).payload = s.payload := rfl
@[simp] theorem State.setStrobe_reply (s : State) (x : Bool) : (s.setStrobe x).reply = s.reply := rfl

@[simp] theorem State.setCart_ram (s : State) (x : Option Cartridge) : (s.setCart x).ram = s.ram := rfl
@[simp] theorem State.setCart_tick (s : State) (x : Option Cartridge) : (s.setCart x).tick = s.tick := rfl
@[simp] theorem State.setCart_dma (s : State) (x : Option Cartridge) : (s.setCart x).dma = s.dma := rfl
@[simp] theorem State.setCart_ctrl (s : State) (x : Option Cartridge) : (s.setCart x).ctrl = s.ctrl := rfl
@[simp] theorem State.setCart_shift (s : State) (x : Option Cartridge) : (s.setCart x).shift = s.shift := rfl
@[simp] theorem State.setCart_strobe (s : State) (x : Option Cartridge) : (s.setCart x).strobe = s.strobe := rfl
@[simp] theorem State.setCart_cart (s : State) (x : Option Cartridge) : (s.setCart x).cart = x := rfl
@[simp] theorem State.setCart_ppu (s : State) (x : Option Cartridge) : (s.setCart x).ppu = s.ppu := rfl
@[simp] theorem State.setCart_proc (s : State) (x : Option Cartridge) : (s.setCart x).proc = s.proc := rfl
@[simp] theorem State.setCart_pending (s : State) (x : Option Cartridge) : (s.setCart x).pending = s.pending := rfl
@[simp] theorem State.setCart_payload (s : State) (x : Option Cartridge) : (s.setCart x).payload = s.payload := rfl
@[simp] theorem State.setCart_reply (s : State) (x : Option Cartridge) : (s.setCart x).reply = s.reply := rfl

@[simp] theorem State.setPpu_ram (s : State) (x : PictureUnit) : (s.setPpu x).ram = s.ram := rfl
@[simp] theorem State.setPpu_tick (s : State) (x : PictureUnit) : (s.setPpu x).tick = s.tick := rfl
@[simp] theorem State.setPpu_dma (s : State) (x : PictureUnit) : (s.setPpu x).dma = s.dma := rfl
@[simp] theorem State.setPpu_ctrl (s : State) (x : PictureUnit) : (s.setPpu x).ctrl = s.ctrl := rfl
@[simp] theorem State.setPpu_shift (s : State) (x : PictureUnit) : (s.setPpu x).shift = s.shift := rfl
@[simp] theorem State.setPpu_strobe (s : State) (x : PictureUnit) : (s.setPpu x).strobe = s.strobe := rfl
@[simp] theorem State.setPpu_cart (s : State) (x : PictureUnit) : (s.setPpu x).cart = s.cart := rfl
@[simp] theorem State.setPpu_ppu (s : State) (x : PictureUnit) : (s.setPpu x).ppu = x := rfl
@[simp] theorem State.setPpu_proc (s : State) (x : PictureUnit) : (s.setPpu x).proc = s.proc := rfl
@[simp] theorem State.setPpu_pending (s : State) (x : PictureUnit) : (s.setPpu x).pending = s.pending := rfl
@[simp] theorem State.setPpu_payload (s : State) (x : PictureUnit) : (s.setPpu x).payload = s.payload := rfl
@[simp] theorem State.setPpu_reply (s : State) (x : PictureUnit) : (s.setPpu x).reply = s.reply := rfl

@[simp] theorem State.setProc_ram (s : State) (x : Processor) : (s.setProc x).ram = s.ram := rfl
@[simp] theorem State.setProc_tick (s : State) (x : Processor) : (s.setProc x).tick = s.tick := rfl
@[simp] theorem State.setProc_dma (s : State) (x : Processor) : (s.setProc x).dma = s.dma := rfl
@[simp] theorem State.setProc_ctrl (s : State) (x : Processor) : (s.setProc x).ctrl = s.ctrl := rfl
@[simp] theorem State.setProc_shift (s : State) (x : Processor) : (s.setProc x).shift = s.shift := rfl
@[simp] theorem State.setProc_strobe (s : State) (x : Processor) : (s.setProc x).strobe = s.strobe := rfl
@[simp] theorem State.setProc_cart (s : State) (x : Processor) : (s.setProc x).cart = s.cart := rfl
@[simp] theorem State.setProc_ppu (s : State) (x : Processor) : (s.setProc x).ppu = s.ppu := rfl
@[simp] theorem State.setProc_proc (s : State) (x : Processor) : (s.setProc x).proc = x := rfl
@[simp] theorem State.setProc_pending (s : State) (x : Processor) : (s.setProc x).pending = s.pending := rfl
@[simp] theorem State.setProc_payload (s : State) (x : Processor) : (s.setProc x).payload = s.payload := rfl
@[simp] theorem State.setProc_reply (s : State) (x : Processor) : (s.setProc x).reply = s.reply := rfl

@[simp] theorem State.setPending_ram (s : State) (x : List HostOp) : (s.setPending x).ram = s.ram := rfl
@[simp] theorem State.setPending_tick (s : State) (x : List HostOp) : (s.setPending x).tick = s.tick := rfl
@[simp] theorem State.setPending_dma (s : State) (x : List HostOp) : (s.setPending x).dma = s.dma := rfl
@[simp] theorem State.setPending_ctrl (s : State) (x : List HostOp) : (s.setPending x).ctrl = s.ctrl := rfl
@[simp] theorem State.setPending_shift (s : State) (x : List HostOp) : (s.setPending x).shift = s.shift := rfl
@[simp] theorem State.setPending_strobe (s : State) (x : List HostOp) : (s.setPending x).strobe = s.strobe := rfl
@[simp] theorem State.setPending_cart (s : State) (x : List HostOp) : (s.setPending x).cart = s.cart := rfl
@[simp] theorem State.setPending_ppu (s : State) (x : List HostOp) : (s.setPending x).ppu = s.ppu := rfl
@[simp] theorem State.setPending_proc (s : State) (x : List HostOp) : (s.setPending x).proc = s.proc := rfl
@[simp] theorem State.setPending_pending (s : State) (x : List HostOp) : (s.setPending x).pending = x := rfl
@[simp] theorem State.setPending_payload (s : State) (x : List HostOp) : (s.setPending x).payload = s.payload := rfl
@[simp] theorem State.setPending_reply (s : State) (x : List HostOp) : (s.setPending x).reply = s.reply := rfl

@[simp] theorem State.setPayload_ram (s : State) (x : Payload) : (s.setPayload x).ram = s.ram := rfl
@[simp] theorem State.setPayload_tick (s : State) (x : Payload) : (s.setPayload x).tick = s.tick := rfl
@[simp] theorem State.setPayload_dma (s : State) (x : Payload) : (s.setPayload x).dma = s.dma := rfl
@[simp] theorem State.setPayload_ctrl (s : State) (x : Payload) : (s.setPayload x).ctrl = s.ctrl := rfl
@[simp] theorem State.setPayload_shift (s : State) (x : Payload) : (s.setPayload x).shift = s.shift := rfl
@[simp] theorem State.setPayload_strobe (s : State) (x : Payload) : (s.setPayload x).strobe = s.strobe := rfl
@[simp] theorem State.setPayload_cart (s : State) (x : Payload) : (s.setPayload x).cart = s.cart := rfl
@[simp] theorem State.setPayload_ppu (s : State) (x : Payload) : (s.setPayload x).ppu = s.ppu := rfl
@[simp] theorem State.setPayload_proc (s : State) (x : Payload) : (s.setPayload x).proc = s.proc := rfl
@[simp] theorem State.setPayload_pending (s : State) (x : Payload) : (s.setPayload x).pending = s.pending := rfl
@[simp] theorem State.setPayload_payload (s : State) (x : Payload) : (s.setPayload x).payload = x := rfl
@[simp] theorem State.setPayload_reply (s : State) (x : Payload) : (s.setPayload x).reply = s.reply := rfl

@[simp] theorem State.setReply_ram (s : State) (x : Reply) : (s.setReply x).ram = s.ram := rfl
@[simp] theorem State.setReply_tick (s : State) (x : Reply) : (s.setReply x).tick = s.tick := rfl
@[simp] theorem State.setReply_dma (s : State) (x : Reply) : (s.setReply x).dma = s.dma := rfl
@[simp] theorem State.setReply_ctrl (s : State) (x : Reply) : (s.setReply x).ctrl = s.ctrl := rfl
@[simp] theorem State.setReply_shift (s : State) (x : Reply) : (s.setReply x).shift = s.shift := rfl
@[simp] theorem State.setReply_strobe (s : State) (x : Reply) : (s.setReply x).strobe = s.strobe := rfl
@[simp] theorem State.setReply_cart (s : State) (x : Reply) : (s.setReply x).cart = s.cart := rfl
@[simp] theorem State.setReply_ppu (s : State) (x : Reply) : (s.setReply x).ppu = s.ppu := rfl
@[simp] theorem State.setReply_proc (s : State) (x : Reply) : (s.setReply x).proc = s.proc := rfl
@[simp] theorem State.setReply_pending (s : State) (x : Reply) : (s.setReply x).pending = s.pending := rfl
@[simp] theorem State.setReply_payload (s : State) (x : Reply) : (s.setReply x).payload = s.payload := rfl
@[simp] theorem State.setReply_reply (s : State) (x : Reply) : (s.setReply x).reply = x := rfl

end Sys2Proof.Machine
end

