-- ==== Sys2Proof/Laws/Ops.lean ====
section
/-! SUPPORT. What each shared operation can do and what it leaves alone. -/

namespace Sys2Proof.Machine

@[simp] theorem ramRead_state (E : Env) (a : Addr) (s : State) : (ramRead E a s).2 = s := rfl
@[simp] theorem openRead_state (E : Env) (s : State) : (openRead E s).2 = s := rfl
@[simp] theorem openWrite_state (v : Byte) (s : State) : openWrite v s = s := rfl
@[simp] theorem windowRead_state (E : Env) (a : Addr) (s : State) : (windowRead E a s).2 = s := rfl

/-- A write of the cartridge window changes nothing: variant 0 accepts none (R112, R193). -/
@[simp] theorem windowWrite_state (a : Addr) (v : Byte) (s : State) : windowWrite a v s = s := by
  have h : slotCpuWrite s.cart a v = s.cart := by
    cases hc : s.cart with
    | none => rfl
    | some c => obtain ⟨h, p, g, ⟨m, n⟩⟩ := c; rfl
  unfold windowWrite State.setCart
  rw [h]

@[simp] theorem ppuCall_ram {α : Type} (E : Env) (p : PpuProg α) (s : State) : ((ppuCall E p s).2).ram = s.ram := by
  rfl

@[simp] theorem ppuCall_tick {α : Type} (E : Env) (p : PpuProg α) (s : State) : ((ppuCall E p s).2).tick = s.tick := by
  rfl

@[simp] theorem ppuCall_dma {α : Type} (E : Env) (p : PpuProg α) (s : State) : ((ppuCall E p s).2).dma = s.dma := by
  rfl

@[simp] theorem ppuCall_ctrl {α : Type} (E : Env) (p : PpuProg α) (s : State) : ((ppuCall E p s).2).ctrl = s.ctrl := by
  rfl

@[simp] theorem ppuCall_shift {α : Type} (E : Env) (p : PpuProg α) (s : State) : ((ppuCall E p s).2).shift = s.shift := by
  rfl

@[simp] theorem ppuCall_strobe {α : Type} (E : Env) (p : PpuProg α) (s : State) : ((ppuCall E p s).2).strobe = s.strobe := by
  rfl

@[simp] theorem ppuCall_proc {α : Type} (E : Env) (p : PpuProg α) (s : State) : ((ppuCall E p s).2).proc = s.proc := by
  rfl

@[simp] theorem ppuCall_pending {α : Type} (E : Env) (p : PpuProg α) (s : State) : ((ppuCall E p s).2).pending = s.pending := by
  rfl

@[simp] theorem ppuCall_payload {α : Type} (E : Env) (p : PpuProg α) (s : State) : ((ppuCall E p s).2).payload = s.payload := by
  rfl

@[simp] theorem ppuCall_reply {α : Type} (E : Env) (p : PpuProg α) (s : State) : ((ppuCall E p s).2).reply = s.reply := by
  rfl

@[simp] theorem portCall_ram (E : Env) (p : PortProg) (s : State) : (portCall E p s).ram = s.ram := rfl
@[simp] theorem portCall_tick (E : Env) (p : PortProg) (s : State) : (portCall E p s).tick = s.tick := rfl
@[simp] theorem portCall_dma (E : Env) (p : PortProg) (s : State) : (portCall E p s).dma = s.dma := rfl
@[simp] theorem portCall_ctrl (E : Env) (p : PortProg) (s : State) : (portCall E p s).ctrl = s.ctrl := rfl
@[simp] theorem portCall_shift (E : Env) (p : PortProg) (s : State) : (portCall E p s).shift = s.shift := rfl
@[simp] theorem portCall_strobe (E : Env) (p : PortProg) (s : State) : (portCall E p s).strobe = s.strobe := rfl
@[simp] theorem portCall_proc (E : Env) (p : PortProg) (s : State) : (portCall E p s).proc = s.proc := rfl
@[simp] theorem portCall_pending (E : Env) (p : PortProg) (s : State) : (portCall E p s).pending = s.pending := rfl
@[simp] theorem portCall_payload (E : Env) (p : PortProg) (s : State) : (portCall E p s).payload = s.payload := rfl
@[simp] theorem portCall_reply (E : Env) (p : PortProg) (s : State) : (portCall E p s).reply = s.reply := rfl

@[simp] theorem ppuTakeNmi_ram (E : Env) (s : State) : (ppuTakeNmi E s).2.ram = s.ram := rfl
@[simp] theorem ppuTakeNmi_tick (E : Env) (s : State) : (ppuTakeNmi E s).2.tick = s.tick := rfl
@[simp] theorem ppuTakeNmi_dma (E : Env) (s : State) : (ppuTakeNmi E s).2.dma = s.dma := rfl
@[simp] theorem ppuTakeNmi_ctrl (E : Env) (s : State) : (ppuTakeNmi E s).2.ctrl = s.ctrl := rfl
@[simp] theorem ppuTakeNmi_shift (E : Env) (s : State) : (ppuTakeNmi E s).2.shift = s.shift := rfl
@[simp] theorem ppuTakeNmi_strobe (E : Env) (s : State) : (ppuTakeNmi E s).2.strobe = s.strobe := rfl
@[simp] theorem ppuTakeNmi_proc (E : Env) (s : State) : (ppuTakeNmi E s).2.proc = s.proc := rfl
@[simp] theorem ppuTakeNmi_pending (E : Env) (s : State) : (ppuTakeNmi E s).2.pending = s.pending := rfl
@[simp] theorem ppuTakeNmi_payload (E : Env) (s : State) : (ppuTakeNmi E s).2.payload = s.payload := rfl
@[simp] theorem ppuTakeNmi_reply (E : Env) (s : State) : (ppuTakeNmi E s).2.reply = s.reply := rfl

@[simp] theorem oamWrite_ram (E : Env) (i v : Byte) (s : State) : (oamWrite E i v s).ram = s.ram := rfl
@[simp] theorem oamWrite_tick (E : Env) (i v : Byte) (s : State) : (oamWrite E i v s).tick = s.tick := rfl
@[simp] theorem oamWrite_dma (E : Env) (i v : Byte) (s : State) : (oamWrite E i v s).dma = s.dma := rfl
@[simp] theorem oamWrite_ctrl (E : Env) (i v : Byte) (s : State) : (oamWrite E i v s).ctrl = s.ctrl := rfl
@[simp] theorem oamWrite_shift (E : Env) (i v : Byte) (s : State) : (oamWrite E i v s).shift = s.shift := rfl
@[simp] theorem oamWrite_strobe (E : Env) (i v : Byte) (s : State) : (oamWrite E i v s).strobe = s.strobe := rfl
@[simp] theorem oamWrite_proc (E : Env) (i v : Byte) (s : State) : (oamWrite E i v s).proc = s.proc := rfl
@[simp] theorem oamWrite_pending (E : Env) (i v : Byte) (s : State) : (oamWrite E i v s).pending = s.pending := rfl
@[simp] theorem oamWrite_payload (E : Env) (i v : Byte) (s : State) : (oamWrite E i v s).payload = s.payload := rfl
@[simp] theorem oamWrite_reply (E : Env) (i v : Byte) (s : State) : (oamWrite E i v s).reply = s.reply := rfl

@[simp] theorem ppuFrameComplete_ram (E : Env) (s : State) :
    (ppuFrameComplete E s).2.ram = s.ram := rfl
@[simp] theorem ppuFrameComplete_tick (E : Env) (s : State) :
    (ppuFrameComplete E s).2.tick = s.tick := rfl
@[simp] theorem ppuFrameComplete_dma (E : Env) (s : State) :
    (ppuFrameComplete E s).2.dma = s.dma := rfl
@[simp] theorem ppuFrameComplete_ctrl (E : Env) (s : State) :
    (ppuFrameComplete E s).2.ctrl = s.ctrl := rfl
@[simp] theorem ppuFrameComplete_shift (E : Env) (s : State) :
    (ppuFrameComplete E s).2.shift = s.shift := rfl
@[simp] theorem ppuFrameComplete_strobe (E : Env) (s : State) :
    (ppuFrameComplete E s).2.strobe = s.strobe := rfl
@[simp] theorem ppuFrameComplete_proc (E : Env) (s : State) :
    (ppuFrameComplete E s).2.proc = s.proc := rfl
@[simp] theorem ppuFrameComplete_pending (E : Env) (s : State) :
    (ppuFrameComplete E s).2.pending = s.pending := rfl
@[simp] theorem ppuFrameComplete_payload (E : Env) (s : State) :
    (ppuFrameComplete E s).2.payload = s.payload := rfl
@[simp] theorem ppuFrameComplete_reply (E : Env) (s : State) :
    (ppuFrameComplete E s).2.reply = s.reply := rfl

@[simp] theorem ppuRegRead_ram (E : Env) (a : Addr) (s : State) : ((ppuRegRead E a s).2).ram = s.ram := by
  rfl

@[simp] theorem ppuRegRead_tick (E : Env) (a : Addr) (s : State) : ((ppuRegRead E a s).2).tick = s.tick := by
  rfl

@[simp] theorem ppuRegRead_dma (E : Env) (a : Addr) (s : State) : ((ppuRegRead E a s).2).dma = s.dma := by
  rfl

@[simp] theorem ppuRegRead_ctrl (E : Env) (a : Addr) (s : State) : ((ppuRegRead E a s).2).ctrl = s.ctrl := by
  rfl

@[simp] theorem ppuRegRead_shift (E : Env) (a : Addr) (s : State) : ((ppuRegRead E a s).2).shift = s.shift := by
  rfl

@[simp] theorem ppuRegRead_strobe (E : Env) (a : Addr) (s : State) : ((ppuRegRead E a s).2).strobe = s.strobe := by
  rfl

@[simp] theorem ppuRegRead_proc (E : Env) (a : Addr) (s : State) : ((ppuRegRead E a s).2).proc = s.proc := by
  rfl

@[simp] theorem ppuRegRead_pending (E : Env) (a : Addr) (s : State) : ((ppuRegRead E a s).2).pending = s.pending := by
  rfl

@[simp] theorem ppuRegRead_payload (E : Env) (a : Addr) (s : State) : ((ppuRegRead E a s).2).payload = s.payload := by
  rfl

@[simp] theorem ppuRegRead_reply (E : Env) (a : Addr) (s : State) : ((ppuRegRead E a s).2).reply = s.reply := by
  rfl

@[simp] theorem ppuRegWrite_ram (E : Env) (a : Addr) (v : Byte) (s : State) : (ppuRegWrite E a v s).ram = s.ram := by
  rfl

@[simp] theorem ppuRegWrite_tick (E : Env) (a : Addr) (v : Byte) (s : State) : (ppuRegWrite E a v s).tick = s.tick := by
  rfl

@[simp] theorem ppuRegWrite_dma (E : Env) (a : Addr) (v : Byte) (s : State) : (ppuRegWrite E a v s).dma = s.dma := by
  rfl

@[simp] theorem ppuRegWrite_ctrl (E : Env) (a : Addr) (v : Byte) (s : State) : (ppuRegWrite E a v s).ctrl = s.ctrl := by
  rfl

@[simp] theorem ppuRegWrite_shift (E : Env) (a : Addr) (v : Byte) (s : State) : (ppuRegWrite E a v s).shift = s.shift := by
  rfl

@[simp] theorem ppuRegWrite_strobe (E : Env) (a : Addr) (v : Byte) (s : State) : (ppuRegWrite E a v s).strobe = s.strobe := by
  rfl

@[simp] theorem ppuRegWrite_proc (E : Env) (a : Addr) (v : Byte) (s : State) : (ppuRegWrite E a v s).proc = s.proc := by
  rfl

@[simp] theorem ppuRegWrite_pending (E : Env) (a : Addr) (v : Byte) (s : State) : (ppuRegWrite E a v s).pending = s.pending := by
  rfl

@[simp] theorem ppuRegWrite_payload (E : Env) (a : Addr) (v : Byte) (s : State) : (ppuRegWrite E a v s).payload = s.payload := by
  rfl

@[simp] theorem ppuRegWrite_reply (E : Env) (a : Addr) (v : Byte) (s : State) : (ppuRegWrite E a v s).reply = s.reply := by
  rfl

@[simp] theorem ctrlRead_ram (E : Env) (p : PortNo) (s : State) : ((ctrlRead E p s).2).ram = s.ram := by
  rfl

@[simp] theorem ctrlRead_tick (E : Env) (p : PortNo) (s : State) : ((ctrlRead E p s).2).tick = s.tick := by
  rfl

@[simp] theorem ctrlRead_dma (E : Env) (p : PortNo) (s : State) : ((ctrlRead E p s).2).dma = s.dma := by
  rfl

@[simp] theorem ctrlRead_ctrl (E : Env) (p : PortNo) (s : State) : ((ctrlRead E p s).2).ctrl = s.ctrl := by
  rfl

@[simp] theorem ctrlRead_strobe (E : Env) (p : PortNo) (s : State) : ((ctrlRead E p s).2).strobe = s.strobe := by
  rfl

@[simp] theorem ctrlRead_cart (E : Env) (p : PortNo) (s : State) : ((ctrlRead E p s).2).cart = s.cart := by
  rfl

@[simp] theorem ctrlRead_ppu (E : Env) (p : PortNo) (s : State) : ((ctrlRead E p s).2).ppu = s.ppu := by
  rfl

@[simp] theorem ctrlRead_proc (E : Env) (p : PortNo) (s : State) : ((ctrlRead E p s).2).proc = s.proc := by
  rfl

@[simp] theorem ctrlRead_pending (E : Env) (p : PortNo) (s : State) : ((ctrlRead E p s).2).pending = s.pending := by
  rfl

@[simp] theorem ctrlRead_payload (E : Env) (p : PortNo) (s : State) : ((ctrlRead E p s).2).payload = s.payload := by
  rfl

@[simp] theorem ctrlRead_reply (E : Env) (p : PortNo) (s : State) : ((ctrlRead E p s).2).reply = s.reply := by
  rfl

@[simp] theorem strobeWrite_ram (v : Byte) (s : State) : (strobeWrite v s).ram = s.ram := by
  rfl

@[simp] theorem strobeWrite_tick (v : Byte) (s : State) : (strobeWrite v s).tick = s.tick := by
  rfl

@[simp] theorem strobeWrite_dma (v : Byte) (s : State) : (strobeWrite v s).dma = s.dma := by
  rfl

@[simp] theorem strobeWrite_ctrl (v : Byte) (s : State) : (strobeWrite v s).ctrl = s.ctrl := by
  rfl

@[simp] theorem strobeWrite_cart (v : Byte) (s : State) : (strobeWrite v s).cart = s.cart := by
  rfl

@[simp] theorem strobeWrite_ppu (v : Byte) (s : State) : (strobeWrite v s).ppu = s.ppu := by
  rfl

@[simp] theorem strobeWrite_proc (v : Byte) (s : State) : (strobeWrite v s).proc = s.proc := by
  rfl

@[simp] theorem strobeWrite_pending (v : Byte) (s : State) : (strobeWrite v s).pending = s.pending := by
  rfl

@[simp] theorem strobeWrite_payload (v : Byte) (s : State) : (strobeWrite v s).payload = s.payload := by
  rfl

@[simp] theorem strobeWrite_reply (v : Byte) (s : State) : (strobeWrite v s).reply = s.reply := by
  rfl

/-! What a processor-side read may change: the shift register of a controller port, and through a Picture Unit
register the cartridge slot and the Picture Unit (R56, R114). -/

@[simp] theorem busRead_ram (E : Env) (a : Addr) (s : State) : ((busRead E a s).2).ram = s.ram := by
  unfold busRead; split_ifs <;> rfl

@[simp] theorem busRead_tick (E : Env) (a : Addr) (s : State) : ((busRead E a s).2).tick = s.tick := by
  unfold busRead; split_ifs <;> rfl

@[simp] theorem busRead_dma (E : Env) (a : Addr) (s : State) : ((busRead E a s).2).dma = s.dma := by
  unfold busRead; split_ifs <;> rfl

@[simp] theorem busRead_ctrl (E : Env) (a : Addr) (s : State) : ((busRead E a s).2).ctrl = s.ctrl := by
  unfold busRead; split_ifs <;> rfl

@[simp] theorem busRead_strobe (E : Env) (a : Addr) (s : State) : ((busRead E a s).2).strobe = s.strobe := by
  unfold busRead; split_ifs <;> rfl

@[simp] theorem busRead_proc (E : Env) (a : Addr) (s : State) : ((busRead E a s).2).proc = s.proc := by
  unfold busRead; split_ifs <;> rfl

@[simp] theorem busRead_pending (E : Env) (a : Addr) (s : State) : ((busRead E a s).2).pending = s.pending := by
  unfold busRead; split_ifs <;> rfl

@[simp] theorem busRead_payload (E : Env) (a : Addr) (s : State) : ((busRead E a s).2).payload = s.payload := by
  unfold busRead; split_ifs <;> rfl

@[simp] theorem busRead_reply (E : Env) (a : Addr) (s : State) : ((busRead E a s).2).reply = s.reply := by
  unfold busRead; split_ifs <;> rfl

/-! What no processor-side write changes (R114). -/

@[simp] theorem busWrite_tick (E : Env) (a : Addr) (v : Byte) (s : State) : (busWrite E a v s).tick = s.tick := by
  unfold busWrite; split_ifs <;> rfl

@[simp] theorem busWrite_ctrl (E : Env) (a : Addr) (v : Byte) (s : State) : (busWrite E a v s).ctrl = s.ctrl := by
  unfold busWrite; split_ifs <;> rfl

@[simp] theorem busWrite_proc (E : Env) (a : Addr) (v : Byte) (s : State) : (busWrite E a v s).proc = s.proc := by
  unfold busWrite; split_ifs <;> rfl

@[simp] theorem busWrite_pending (E : Env) (a : Addr) (v : Byte) (s : State) : (busWrite E a v s).pending = s.pending := by
  unfold busWrite; split_ifs <;> rfl

@[simp] theorem busWrite_payload (E : Env) (a : Addr) (v : Byte) (s : State) : (busWrite E a v s).payload = s.payload := by
  unfold busWrite; split_ifs <;> rfl

@[simp] theorem busWrite_reply (E : Env) (a : Addr) (v : Byte) (s : State) : (busWrite E a v s).reply = s.reply := by
  unfold busWrite; split_ifs <;> rfl

/-! What the Processor cannot reach (R241). -/

@[simp] theorem runProc_tick (E : Env) (p : ProcProg) (s : State) : (runProc E p s).tick = s.tick := by
  induction p generalizing s with
  | read a k ih => rw [runProc, ih]; simp
  | write a v k ih => rw [runProc, ih]; simp
  | done p => rfl

@[simp] theorem runProc_ctrl (E : Env) (p : ProcProg) (s : State) : (runProc E p s).ctrl = s.ctrl := by
  induction p generalizing s with
  | read a k ih => rw [runProc, ih]; simp
  | write a v k ih => rw [runProc, ih]; simp
  | done p => rfl

@[simp] theorem runProc_pending (E : Env) (p : ProcProg) (s : State) : (runProc E p s).pending = s.pending := by
  induction p generalizing s with
  | read a k ih => rw [runProc, ih]; simp
  | write a v k ih => rw [runProc, ih]; simp
  | done p => rfl

@[simp] theorem runProc_payload (E : Env) (p : ProcProg) (s : State) : (runProc E p s).payload = s.payload := by
  induction p generalizing s with
  | read a k ih => rw [runProc, ih]; simp
  | write a v k ih => rw [runProc, ih]; simp
  | done p => rfl

@[simp] theorem runProc_reply (E : Env) (p : ProcProg) (s : State) : (runProc E p s).reply = s.reply := by
  induction p generalizing s with
  | read a k ih => rw [runProc, ih]; simp
  | write a v k ih => rw [runProc, ih]; simp
  | done p => rfl

/-! What the DMA engine cannot reach (R241). -/

@[simp] theorem dmaSubStep_ram (E : Env) (s : State) : (dmaSubStep E s).ram = s.ram := by
  unfold dmaSubStep; split_ifs <;> simp [dmaDummy, dmaWrite, dmaRead]

@[simp] theorem dmaSubStep_tick (E : Env) (s : State) : (dmaSubStep E s).tick = s.tick := by
  unfold dmaSubStep; split_ifs <;> simp [dmaDummy, dmaWrite, dmaRead]

@[simp] theorem dmaSubStep_ctrl (E : Env) (s : State) : (dmaSubStep E s).ctrl = s.ctrl := by
  unfold dmaSubStep; split_ifs <;> simp [dmaDummy, dmaWrite, dmaRead]

@[simp] theorem dmaSubStep_strobe (E : Env) (s : State) : (dmaSubStep E s).strobe = s.strobe := by
  unfold dmaSubStep; split_ifs <;> simp [dmaDummy, dmaWrite, dmaRead]

@[simp] theorem dmaSubStep_proc (E : Env) (s : State) : (dmaSubStep E s).proc = s.proc := by
  unfold dmaSubStep; split_ifs <;> simp [dmaDummy, dmaWrite, dmaRead]

@[simp] theorem dmaSubStep_pending (E : Env) (s : State) : (dmaSubStep E s).pending = s.pending := by
  unfold dmaSubStep; split_ifs <;> simp [dmaDummy, dmaWrite, dmaRead]

@[simp] theorem dmaSubStep_payload (E : Env) (s : State) : (dmaSubStep E s).payload = s.payload := by
  unfold dmaSubStep; split_ifs <;> simp [dmaDummy, dmaWrite, dmaRead]

@[simp] theorem dmaSubStep_reply (E : Env) (s : State) : (dmaSubStep E s).reply = s.reply := by
  unfold dmaSubStep; split_ifs <;> simp [dmaDummy, dmaWrite, dmaRead]

/-! The phases of a clock step (R141, R142). -/

@[simp] theorem ppuDot_ram (E : Env) (s : State) : (ppuDot E s).ram = s.ram := by
  rfl

@[simp] theorem ppuDot_tick (E : Env) (s : State) : (ppuDot E s).tick = s.tick := by
  rfl

@[simp] theorem ppuDot_dma (E : Env) (s : State) : (ppuDot E s).dma = s.dma := by
  rfl

@[simp] theorem ppuDot_ctrl (E : Env) (s : State) : (ppuDot E s).ctrl = s.ctrl := by
  rfl

@[simp] theorem ppuDot_shift (E : Env) (s : State) : (ppuDot E s).shift = s.shift := by
  rfl

@[simp] theorem ppuDot_strobe (E : Env) (s : State) : (ppuDot E s).strobe = s.strobe := by
  rfl

@[simp] theorem ppuDot_proc (E : Env) (s : State) : (ppuDot E s).proc = s.proc := by
  rfl

@[simp] theorem ppuDot_pending (E : Env) (s : State) : (ppuDot E s).pending = s.pending := by
  rfl

@[simp] theorem ppuDot_payload (E : Env) (s : State) : (ppuDot E s).payload = s.payload := by
  rfl

@[simp] theorem ppuDot_reply (E : Env) (s : State) : (ppuDot E s).reply = s.reply := by
  rfl

@[simp] theorem forwardNmi_ram (E : Env) (s : State) : (forwardNmi E s).ram = s.ram := by
  unfold forwardNmi; dsimp only; split <;> rfl

@[simp] theorem forwardNmi_tick (E : Env) (s : State) : (forwardNmi E s).tick = s.tick := by
  unfold forwardNmi; dsimp only; split <;> rfl

@[simp] theorem forwardNmi_dma (E : Env) (s : State) : (forwardNmi E s).dma = s.dma := by
  unfold forwardNmi; dsimp only; split <;> rfl

@[simp] theorem forwardNmi_ctrl (E : Env) (s : State) : (forwardNmi E s).ctrl = s.ctrl := by
  unfold forwardNmi; dsimp only; split <;> rfl

@[simp] theorem forwardNmi_shift (E : Env) (s : State) : (forwardNmi E s).shift = s.shift := by
  unfold forwardNmi; dsimp only; split <;> rfl

@[simp] theorem forwardNmi_strobe (E : Env) (s : State) : (forwardNmi E s).strobe = s.strobe := by
  unfold forwardNmi; dsimp only; split <;> rfl

@[simp] theorem forwardNmi_pending (E : Env) (s : State) : (forwardNmi E s).pending = s.pending := by
  unfold forwardNmi; dsimp only; split <;> rfl

@[simp] theorem forwardNmi_payload (E : Env) (s : State) : (forwardNmi E s).payload = s.payload := by
  unfold forwardNmi; dsimp only; split <;> rfl

@[simp] theorem forwardNmi_reply (E : Env) (s : State) : (forwardNmi E s).reply = s.reply := by
  unfold forwardNmi; dsimp only; split <;> rfl

@[simp] theorem slotPhase_tick (E : Env) (s : State) : (slotPhase E s).tick = s.tick := by
  unfold slotPhase procSlot; split_ifs <;> simp

@[simp] theorem slotPhase_ctrl (E : Env) (s : State) : (slotPhase E s).ctrl = s.ctrl := by
  unfold slotPhase procSlot; split_ifs <;> simp

@[simp] theorem slotPhase_pending (E : Env) (s : State) : (slotPhase E s).pending = s.pending := by
  unfold slotPhase procSlot; split_ifs <;> simp

@[simp] theorem slotPhase_payload (E : Env) (s : State) : (slotPhase E s).payload = s.payload := by
  unfold slotPhase procSlot; split_ifs <;> simp

@[simp] theorem slotPhase_reply (E : Env) (s : State) : (slotPhase E s).reply = s.reply := by
  unfold slotPhase procSlot; split_ifs <;> simp

@[simp] theorem clock_ctrl (E : Env) (s : State) : (clock E s).ctrl = s.ctrl := by
  simp [clock, tickPhase]

@[simp] theorem clock_pending (E : Env) (s : State) : (clock E s).pending = s.pending := by
  simp [clock, tickPhase]

@[simp] theorem clock_payload (E : Env) (s : State) : (clock E s).payload = s.payload := by
  simp [clock, tickPhase]

@[simp] theorem clock_reply (E : Env) (s : State) : (clock E s).reply = s.reply := by
  simp [clock, tickPhase]

@[simp] theorem clock_tick (E : Env) (s : State) : (clock E s).tick = s.tick + 1 := by
  simp [clock, tickPhase]

/-! ### The cartridge slot (R180) -/

theorem cartKept_refl (x : Option Cartridge) : cartKept x x := by
  cases x <;> simp [cartKept]

theorem cartKept_trans {x y z : Option Cartridge} (h1 : cartKept x y) (h2 : cartKept y z) : cartKept x z := by
  cases x <;> cases y <;> cases z <;> simp_all [cartKept]

theorem slotPpuWrite_kept (E : Env) (x : Option Cartridge) (a : Addr) (v : Byte) :
    cartKept x (slotPpuWrite E x a v) := by
  cases x with
  | none => trivial
  | some c =>
    refine ⟨rfl, rfl, rfl, ?_⟩
    simp only [cartPpuWrite, storageWrite]
    split
    · exact Image.size_write ..
    · rfl

theorem slotPpuWrite_wf {E : Env} {x : Option Cartridge} {a : Addr} {v : Byte} (h : ∀ c, x = some c → c.wf) :
    ∀ c, slotPpuWrite E x a v = some c → c.wf := by
  intro c hc
  cases x with
  | none => cases hc
  | some c0 =>
    obtain ⟨h1, h2, h3, h4, h5, h6⟩ := h c0 rfl
    simp only [slotPpuWrite, Option.some.injEq] at hc
    subst hc
    refine ⟨h1, ?_, h3, h4, h5, ?_⟩ <;> simp only [cartPpuWrite, storageWrite] <;> split
    · rw [Image.size_write]; exact h2
    · exact h2
    · exact Image.wf_write _ _ h6
    · exact h6

/-! ### The external agents (R11, R141, R144) -/

/-- A call of the Picture Unit keeps all of the slot but the bytes of graphics storage (R141, R180). -/
theorem runPpu_kept {α : Type} (E : Env) (p : PpuProg α) (x : Option Cartridge) (u : PictureUnit) :
    cartKept x (runPpu E p x u).2.1 := by
  induction p generalizing x u with
  | read a k ih => exact ih _ x u
  | write a v k ih => exact cartKept_trans (slotPpuWrite_kept E x a v) (ih _ u)
  | mirror k ih => exact ih _ x u
  | oam i v k ih => exact ih x _
  | done n f i r => exact cartKept_refl x

/-- A call of the Picture Unit keeps the canonical forms. -/
theorem runPpu_wf {α : Type} (E : Env) (p : PpuProg α) (x : Option Cartridge) (u : PictureUnit)
    (hx : ∀ c, x = some c → c.wf) (hu : Memory.wf E.oamInit 256 u.oam = true) :
    (∀ c, (runPpu E p x u).2.1 = some c → c.wf) ∧ Memory.wf E.oamInit 256 (runPpu E p x u).2.2.oam = true := by
  induction p generalizing x u with
  | read a k ih => exact ih _ x u hx hu
  | write a v k ih => exact ih _ u (slotPpuWrite_wf hx) hu
  | mirror k ih => exact ih _ x u hx hu
  | oam i v k ih => exact ih x _ hx (Memory.wf_write v i.isLt hu)
  | done n f i r => exact ⟨hx, hu⟩

/-- A silent call leaves the object memory alone. -/
theorem runPpu_oamSilent {α : Type} (E : Env) (p : PpuProg α) (x : Option Cartridge) (u : PictureUnit)
    (h : oamSilent p) : (runPpu E p x u).2.2.oam = u.oam := by
  induction p generalizing x u with
  | read a k ih => exact ih _ x u (h _)
  | write a v k ih => exact ih _ u h
  | mirror k ih => exact ih _ x u (h _)
  | oam i v k ih => exact h.elim
  | done n f i r => rfl

/-- A call with no writes of object memory is silent. -/
theorem asCall_silent (p : PortProg) : oamSilent (asCall p) := by
  induction p with
  | read a k ih => exact ih
  | write a v k ih => exact ih
  | mirror k ih => exact ih
  | done n f i => trivial

@[simp] theorem portCall_oam (E : Env) (p : PortProg) (s : State) : (portCall E p s).ppu.oam = s.ppu.oam :=
  runPpu_oamSilent _ _ _ _ (asCall_silent p)

theorem oamWrite_kept (E : Env) (i v : Byte) (s : State) : cartKept s.cart (oamWrite E i v s).cart := runPpu_kept ..

theorem oamWrite_oam (E : Env) (i v : Byte) (s : State) :
    (oamWrite E i v s).ppu.oam = Memory.write E.oamInit s.ppu.oam i.toNat v := by
  simp [oamWrite, oamStore]

theorem forwardNmi_kept (E : Env) (s : State) : cartKept s.cart (forwardNmi E s).cart := by
  unfold forwardNmi
  dsimp only
  split <;> exact runPpu_kept ..

@[simp] theorem forwardNmi_oam (E : Env) (s : State) : (forwardNmi E s).ppu.oam = s.ppu.oam := by
  unfold forwardNmi
  dsimp only
  split <;> simp [ppuTakeNmi]

@[simp] theorem forwardNmi_nmiPending (E : Env) (s : State) : (forwardNmi E s).ppu.nmiPending = false := by
  unfold forwardNmi
  dsimp only
  split <;> rfl

@[simp] theorem forwardNmi_proc (E : Env) (s : State) :
    (forwardNmi E s).proc =
      { s.proc with nmiAsserts := s.proc.nmiAsserts + if s.ppu.nmiPending then 1 else 0 } := by
  unfold forwardNmi ppuTakeNmi
  dsimp only
  split <;> simp [procNmi, *]

theorem ppuDot_kept (E : Env) (s : State) : cartKept s.cart (ppuDot E s).cart := runPpu_kept ..

theorem busRead_kept (E : Env) (a : Addr) (s : State) : cartKept s.cart (busRead E a s).2.cart := by
  unfold busRead
  split_ifs
  · exact cartKept_refl _
  · exact runPpu_kept ..
  all_goals exact cartKept_refl _

theorem busWrite_kept (E : Env) (a : Addr) (v : Byte) (s : State) : cartKept s.cart (busWrite E a v s).cart := by
  unfold busWrite
  split_ifs
  · exact cartKept_refl _
  · exact runPpu_kept ..
  · exact cartKept_refl _
  · exact cartKept_refl _
  · exact cartKept_refl _
  · rw [windowWrite_state]; exact cartKept_refl _

theorem runProc_kept (E : Env) (p : ProcProg) (s : State) : cartKept s.cart (runProc E p s).cart := by
  induction p generalizing s with
  | read a k ih => exact cartKept_trans (busRead_kept E a s) (ih _ _)
  | write a v k ih => exact cartKept_trans (busWrite_kept E a v s) (ih _)
  | done p => exact cartKept_refl _

theorem dmaSubStep_kept (E : Env) (s : State) : cartKept s.cart (dmaSubStep E s).cart := by
  unfold dmaSubStep
  split_ifs
  · exact cartKept_refl _
  · exact oamWrite_kept ..
  · exact busRead_kept ..

/-- A clock step keeps all of the slot but the bytes of graphics storage (R180). -/
theorem clock_kept (E : Env) (s : State) : cartKept s.cart (clock E s).cart := by
  have h1 : cartKept s.cart (forwardNmi E (ppuDot E s)).cart :=
    cartKept_trans (ppuDot_kept E s) (forwardNmi_kept ..)
  refine cartKept_trans h1 ?_
  simp only [clock, tickPhase, State.setTick_cart]
  unfold slotPhase procSlot
  split_ifs
  · exact dmaSubStep_kept ..
  · exact runProc_kept ..
  · exact cartKept_refl _

/-! ### The DMA engine (R145 to R147) -/

theorem dmaSubStep_dummy (E : Env) {s : State} (h : s.dma.dummy = true) : dmaSubStep E s = dmaDummy s := by
  simp [dmaSubStep, h]

theorem dmaSubStep_read (E : Env) {s : State} (h : s.dma.dummy = false) (hp : s.dma.phase = false) :
    dmaSubStep E s = dmaRead E s := by
  simp [dmaSubStep, h, hp]

theorem dmaSubStep_write (E : Env) {s : State} (h : s.dma.dummy = false) (hp : s.dma.phase = true) :
    dmaSubStep E s = dmaWrite E s := by
  simp [dmaSubStep, h, hp]

@[simp] theorem dmaDummy_dma (s : State) : (dmaDummy s).dma = s.dma.endDummy := rfl

@[simp] theorem dmaRead_dma (E : Env) (s : State) :
    (dmaRead E s).dma = s.dma.stage (busRead E (dmaAddr s.dma.page s.dma.cursor) s).1 := by
  simp [dmaRead]

@[simp] theorem dmaWrite_dma (E : Env) (s : State) : (dmaWrite E s).dma = s.dma.advance := rfl

theorem dmaWrite_oam (E : Env) (s : State) (j : Nat) :
    Memory.read E.oamInit (dmaWrite E s).ppu.oam j =
      if j = s.dma.cursor.toNat then s.dma.data else Memory.read E.oamInit s.ppu.oam j := by
  simp [dmaWrite, oamWrite_oam, Memory.read_write]

/-! ### The invariant, operation by operation -/

variable {E : Env} {s : State}

theorem State.Inv.ppuCall {α : Type} (h : s.Inv E) (p : PpuProg α) : (ppuCall E p s).2.Inv E := by
  have hw := runPpu_wf E p s.cart s.ppu h.cart h.oam
  exact ⟨h.ram, hw.2, hw.1, h.dma, h.payload, h.pending⟩

theorem State.Inv.portCall (h : s.Inv E) (p : PortProg) : (Machine.portCall E p s).Inv E := h.ppuCall _

theorem State.Inv.ppuFrameComplete (h : s.Inv E) : (Machine.ppuFrameComplete E s).2.Inv E := h.portCall _

theorem State.Inv.busRead (h : s.Inv E) (a : Addr) : (Machine.busRead E a s).2.Inv E := by
  unfold Machine.busRead
  split_ifs
  · exact h
  · exact h.ppuCall _
  · exact h
  · exact ⟨h.ram, h.oam, h.cart, h.dma, h.payload, h.pending⟩
  · exact h
  · exact h

theorem State.Inv.busWrite (h : s.Inv E) (a : Addr) (v : Byte) : (Machine.busWrite E a v s).Inv E := by
  unfold Machine.busWrite
  split_ifs
  · exact ⟨Memory.wf_write v (ramIndex_lt a) h.ram, h.oam, h.cart, h.dma, h.payload, h.pending⟩
  · exact h.ppuCall _
  · exact ⟨h.ram, h.oam, h.cart, fun _ => ⟨rfl, rfl, rfl⟩, h.payload, h.pending⟩
  · exact ⟨h.ram, h.oam, h.cart, h.dma, h.payload, h.pending⟩
  · exact h
  · rw [windowWrite_state]; exact h

theorem State.Inv.runProc (h : s.Inv E) (p : ProcProg) : (Machine.runProc E p s).Inv E := by
  induction p generalizing s with
  | read a k ih => exact ih _ (h.busRead a)
  | write a v k ih => exact ih (h.busWrite a v)
  | done p => exact ⟨h.ram, h.oam, h.cart, h.dma, h.payload, h.pending⟩

theorem State.Inv.dmaSubStep (h : s.Inv E) : (Machine.dmaSubStep E s).Inv E := by
  by_cases hd : s.dma.dummy = true
  · rw [dmaSubStep_dummy E hd]
    exact ⟨h.ram, h.oam, h.cart, fun e => by simp [dmaDummy, Dma.endDummy] at e, h.payload, h.pending⟩
  · have hd' : s.dma.dummy = false := by simpa using hd
    by_cases hp : s.dma.phase = true
    · rw [dmaSubStep_write E hd' hp]
      have hc := h.portCall (E.ppuOamWrite s.dma.cursor s.dma.data s.ppu)
      exact ⟨hc.ram, Memory.wf_write _ s.dma.cursor.isLt hc.oam, hc.cart,
        fun e => by simp [dmaWrite, Dma.advance, hd'] at e, hc.payload, hc.pending⟩
    · rw [dmaSubStep_read E hd' (by simpa using hp)]
      have hr := h.busRead (dmaAddr s.dma.page s.dma.cursor)
      exact ⟨hr.ram, hr.oam, hr.cart, fun e => by simp [dmaRead, Dma.stage, hd'] at e, hr.payload, hr.pending⟩

theorem State.Inv.forwardNmi (h : s.Inv E) : (Machine.forwardNmi E s).Inv E := by
  have hc := h.portCall (E.ppuTakeNmi s.ppu)
  unfold Machine.forwardNmi
  dsimp only
  split <;> exact ⟨hc.ram, hc.oam, hc.cart, hc.dma, hc.payload, hc.pending⟩

theorem State.Inv.clock (h : s.Inv E) : (Machine.clock E s).Inv E := by
  have h2 : (Machine.forwardNmi E (ppuDot E s)).Inv E := (h.ppuCall _).forwardNmi
  have h3 : (slotPhase E (Machine.forwardNmi E (ppuDot E s))).Inv E := by
    unfold slotPhase procSlot
    split_ifs
    · exact h2.dmaSubStep
    · exact h2.runProc _
    · exact h2
  exact ⟨h3.ram, h3.oam, h3.cart, h3.dma, h3.payload, h3.pending⟩

end Sys2Proof.Machine
end

