-- ==== Sys2Proof/Laws/PerInstr.lean ====
section
/-! SUPPORT. One lemma per operation: the word the encoder writes fits a row of the opcode table that builds the
operation back. -/

namespace Sys2Proof

/-- The two port rows fit the words R82 lays out. -/
theorem port_fits (w : BitVec 1) (a : Addr) (d : Byte) :
    wordBus 1 w a d &&& (0xF000000 : OpWord) = (((1#3 ++ w) ++ 0#16) ++ 0#8 : BitVec 28) := by
  have hm : (0xF000000 : OpWord) = (((BitVec.allOnes 3 ++ BitVec.allOnes 1) ++ 0#16) ++ 0#8 : BitVec 28) := by decide
  have hw : ∀ x : BitVec 1, x &&& BitVec.allOnes 1 = x := by decide
  rw [hm]
  unfold wordBus
  rw [BitVec.and_append, BitVec.and_append, BitVec.and_append, hw]
  simp

end Sys2Proof

namespace Sys2Proof.Laws.EncodeFits

/-- A well-formed operation's word fits a row of the table, and that row builds the operation (R87, R91). -/
def Statement (i : Instr) : Prop :=
  i.wf = true → ∃ r ∈ opcodeTable, r.fits (encode i) = true ∧ r.build (encode i) = i

theorem rdRam (a : Addr) : Statement (.rdRam a) :=
  fun h => ⟨opcodeTable[0], List.getElem_mem _, busRow_fits_block 13 (by decide) (by decide) h, congrArg Instr.rdRam (fieldA_wordBus ..)⟩

theorem rdPpuReg (a : Addr) : Statement (.rdPpuReg a) :=
  fun h => ⟨opcodeTable[1], List.getElem_mem _, busRow_fits_block 13 (by decide) (by decide) h, congrArg Instr.rdPpuReg (fieldA_wordBus ..)⟩

theorem rdOpen4000 (a : Addr) : Statement (.rdOpen4000 a) :=
  fun h => ⟨opcodeTable[2], List.getElem_mem _, busRow_fits_block 4 (by decide) (by decide) h, congrArg Instr.rdOpen4000 (fieldA_wordBus ..)⟩

theorem rdOpen4010 (a : Addr) : Statement (.rdOpen4010 a) :=
  fun h => ⟨opcodeTable[3], List.getElem_mem _, busRow_fits_block 2 (by decide) (by decide) h, congrArg Instr.rdOpen4010 (fieldA_wordBus ..)⟩

theorem rdOamDma : Statement (.rdOamDma) :=
  fun _ => ⟨opcodeTable[4], List.getElem_mem _, busRow_fits_block 0 rfl rfl (by decide), rfl⟩

theorem rdOpen4015 : Statement (.rdOpen4015) :=
  fun _ => ⟨opcodeTable[5], List.getElem_mem _, busRow_fits_block 0 rfl rfl (by decide), rfl⟩

theorem rdCtrl (p : PortNo) : Statement (.rdCtrl p) :=
  fun _ => ⟨opcodeTable[6], List.getElem_mem _, (show ∀ q : PortNo, opcodeTable[6].fits (encode (.rdCtrl q)) = true by decide) p,
    (show ∀ q : PortNo, opcodeTable[6].build (encode (.rdCtrl q)) = .rdCtrl q by decide) p⟩

theorem rdOpen4018 (a : Addr) : Statement (.rdOpen4018 a) :=
  fun h => ⟨opcodeTable[7], List.getElem_mem _, busRow_fits_block 3 (by decide) (by decide) h, congrArg Instr.rdOpen4018 (fieldA_wordBus ..)⟩

theorem rdCart4020 (a : Addr) : Statement (.rdCart4020 a) :=
  fun h => ⟨opcodeTable[8], List.getElem_mem _, busRow_fits_block 5 (by decide) (by decide) h, congrArg Instr.rdCart4020 (fieldA_wordBus ..)⟩

theorem rdCart4040 (a : Addr) : Statement (.rdCart4040 a) :=
  fun h => ⟨opcodeTable[9], List.getElem_mem _, busRow_fits_block 6 (by decide) (by decide) h, congrArg Instr.rdCart4040 (fieldA_wordBus ..)⟩

theorem rdCart4080 (a : Addr) : Statement (.rdCart4080 a) :=
  fun h => ⟨opcodeTable[10], List.getElem_mem _, busRow_fits_block 7 (by decide) (by decide) h, congrArg Instr.rdCart4080 (fieldA_wordBus ..)⟩

theorem rdCart4100 (a : Addr) : Statement (.rdCart4100 a) :=
  fun h => ⟨opcodeTable[11], List.getElem_mem _, busRow_fits_block 8 (by decide) (by decide) h, congrArg Instr.rdCart4100 (fieldA_wordBus ..)⟩

theorem rdCart4200 (a : Addr) : Statement (.rdCart4200 a) :=
  fun h => ⟨opcodeTable[12], List.getElem_mem _, busRow_fits_block 9 (by decide) (by decide) h, congrArg Instr.rdCart4200 (fieldA_wordBus ..)⟩

theorem rdCart4400 (a : Addr) : Statement (.rdCart4400 a) :=
  fun h => ⟨opcodeTable[13], List.getElem_mem _, busRow_fits_block 10 (by decide) (by decide) h, congrArg Instr.rdCart4400 (fieldA_wordBus ..)⟩

theorem rdCart4800 (a : Addr) : Statement (.rdCart4800 a) :=
  fun h => ⟨opcodeTable[14], List.getElem_mem _, busRow_fits_block 11 (by decide) (by decide) h, congrArg Instr.rdCart4800 (fieldA_wordBus ..)⟩

theorem rdCart5000 (a : Addr) : Statement (.rdCart5000 a) :=
  fun h => ⟨opcodeTable[15], List.getElem_mem _, busRow_fits_block 12 (by decide) (by decide) h, congrArg Instr.rdCart5000 (fieldA_wordBus ..)⟩

theorem rdCart6000 (a : Addr) : Statement (.rdCart6000 a) :=
  fun h => ⟨opcodeTable[16], List.getElem_mem _, busRow_fits_block 13 (by decide) (by decide) h, congrArg Instr.rdCart6000 (fieldA_wordBus ..)⟩

theorem rdCart8000 (a : Addr) : Statement (.rdCart8000 a) :=
  fun h => ⟨opcodeTable[17], List.getElem_mem _, busRow_fits_block 15 (by decide) (by decide) h, congrArg Instr.rdCart8000 (fieldA_wordBus ..)⟩

theorem wrRam (a : Addr) (v : Byte) : Statement (.wrRam a v) :=
  fun h => ⟨opcodeTable[18], List.getElem_mem _, busRow_fits_block 13 (by decide) (by decide) h, congrArg₂ Instr.wrRam (fieldA_wordBus ..) (fieldD_wordBus ..)⟩

theorem wrPpuReg (a : Addr) (v : Byte) : Statement (.wrPpuReg a v) :=
  fun h => ⟨opcodeTable[19], List.getElem_mem _, busRow_fits_block 13 (by decide) (by decide) h, congrArg₂ Instr.wrPpuReg (fieldA_wordBus ..) (fieldD_wordBus ..)⟩

theorem wrOpen4000 (a : Addr) (v : Byte) : Statement (.wrOpen4000 a v) :=
  fun h => ⟨opcodeTable[20], List.getElem_mem _, busRow_fits_block 4 (by decide) (by decide) h, congrArg₂ Instr.wrOpen4000 (fieldA_wordBus ..) (fieldD_wordBus ..)⟩

theorem wrOpen4010 (a : Addr) (v : Byte) : Statement (.wrOpen4010 a v) :=
  fun h => ⟨opcodeTable[21], List.getElem_mem _, busRow_fits_block 2 (by decide) (by decide) h, congrArg₂ Instr.wrOpen4010 (fieldA_wordBus ..) (fieldD_wordBus ..)⟩

theorem wrOamDma (v : Byte) : Statement (.wrOamDma v) :=
  fun _ => ⟨opcodeTable[22], List.getElem_mem _, busRow_fits_block 0 rfl rfl (by decide), congrArg Instr.wrOamDma (fieldD_wordBus ..)⟩

theorem wrOpen4015 (v : Byte) : Statement (.wrOpen4015 v) :=
  fun _ => ⟨opcodeTable[23], List.getElem_mem _, busRow_fits_block 0 rfl rfl (by decide), congrArg Instr.wrOpen4015 (fieldD_wordBus ..)⟩

theorem wrStrobe (v : Byte) : Statement (.wrStrobe v) :=
  fun _ => ⟨opcodeTable[24], List.getElem_mem _, busRow_fits_block 0 rfl rfl (by decide), congrArg Instr.wrStrobe (fieldD_wordBus ..)⟩

theorem wrOpen4017 (v : Byte) : Statement (.wrOpen4017 v) :=
  fun _ => ⟨opcodeTable[25], List.getElem_mem _, busRow_fits_block 0 rfl rfl (by decide), congrArg Instr.wrOpen4017 (fieldD_wordBus ..)⟩

theorem wrOpen4018 (a : Addr) (v : Byte) : Statement (.wrOpen4018 a v) :=
  fun h => ⟨opcodeTable[26], List.getElem_mem _, busRow_fits_block 3 (by decide) (by decide) h, congrArg₂ Instr.wrOpen4018 (fieldA_wordBus ..) (fieldD_wordBus ..)⟩

theorem wrCart4020 (a : Addr) (v : Byte) : Statement (.wrCart4020 a v) :=
  fun h => ⟨opcodeTable[27], List.getElem_mem _, busRow_fits_block 5 (by decide) (by decide) h, congrArg₂ Instr.wrCart4020 (fieldA_wordBus ..) (fieldD_wordBus ..)⟩

theorem wrCart4040 (a : Addr) (v : Byte) : Statement (.wrCart4040 a v) :=
  fun h => ⟨opcodeTable[28], List.getElem_mem _, busRow_fits_block 6 (by decide) (by decide) h, congrArg₂ Instr.wrCart4040 (fieldA_wordBus ..) (fieldD_wordBus ..)⟩

theorem wrCart4080 (a : Addr) (v : Byte) : Statement (.wrCart4080 a v) :=
  fun h => ⟨opcodeTable[29], List.getElem_mem _, busRow_fits_block 7 (by decide) (by decide) h, congrArg₂ Instr.wrCart4080 (fieldA_wordBus ..) (fieldD_wordBus ..)⟩

theorem wrCart4100 (a : Addr) (v : Byte) : Statement (.wrCart4100 a v) :=
  fun h => ⟨opcodeTable[30], List.getElem_mem _, busRow_fits_block 8 (by decide) (by decide) h, congrArg₂ Instr.wrCart4100 (fieldA_wordBus ..) (fieldD_wordBus ..)⟩

theorem wrCart4200 (a : Addr) (v : Byte) : Statement (.wrCart4200 a v) :=
  fun h => ⟨opcodeTable[31], List.getElem_mem _, busRow_fits_block 9 (by decide) (by decide) h, congrArg₂ Instr.wrCart4200 (fieldA_wordBus ..) (fieldD_wordBus ..)⟩

theorem wrCart4400 (a : Addr) (v : Byte) : Statement (.wrCart4400 a v) :=
  fun h => ⟨opcodeTable[32], List.getElem_mem _, busRow_fits_block 10 (by decide) (by decide) h, congrArg₂ Instr.wrCart4400 (fieldA_wordBus ..) (fieldD_wordBus ..)⟩

theorem wrCart4800 (a : Addr) (v : Byte) : Statement (.wrCart4800 a v) :=
  fun h => ⟨opcodeTable[33], List.getElem_mem _, busRow_fits_block 11 (by decide) (by decide) h, congrArg₂ Instr.wrCart4800 (fieldA_wordBus ..) (fieldD_wordBus ..)⟩

theorem wrCart5000 (a : Addr) (v : Byte) : Statement (.wrCart5000 a v) :=
  fun h => ⟨opcodeTable[34], List.getElem_mem _, busRow_fits_block 12 (by decide) (by decide) h, congrArg₂ Instr.wrCart5000 (fieldA_wordBus ..) (fieldD_wordBus ..)⟩

theorem wrCart6000 (a : Addr) (v : Byte) : Statement (.wrCart6000 a v) :=
  fun h => ⟨opcodeTable[35], List.getElem_mem _, busRow_fits_block 13 (by decide) (by decide) h, congrArg₂ Instr.wrCart6000 (fieldA_wordBus ..) (fieldD_wordBus ..)⟩

theorem wrCart8000 (a : Addr) (v : Byte) : Statement (.wrCart8000 a v) :=
  fun h => ⟨opcodeTable[36], List.getElem_mem _, busRow_fits_block 15 (by decide) (by decide) h, congrArg₂ Instr.wrCart8000 (fieldA_wordBus ..) (fieldD_wordBus ..)⟩

theorem prd (a : Addr) : Statement (.prd a) :=
  fun _ => ⟨opcodeTable[37], List.getElem_mem _, beq_iff_eq.2 (port_fits 0 a 0), congrArg Instr.prd (fieldA_wordBus ..)⟩

theorem pwr (a : Addr) (v : Byte) : Statement (.pwr a v) :=
  fun _ => ⟨opcodeTable[38], List.getElem_mem _, beq_iff_eq.2 (port_fits 1 a v),
    congrArg₂ Instr.pwr (fieldA_wordBus ..) (fieldD_wordBus ..)⟩

theorem clk : Statement (.clk) :=
  fun _ => ⟨opcodeTable[39], List.getElem_mem _, by decide, rfl⟩

theorem ctl (p : PortNo) (v : Byte) : Statement (.ctl p v) :=
  fun _ => ⟨opcodeTable[40], List.getElem_mem _, beq_iff_eq.2 (ctl_fits p v),
    congrArg₂ Instr.ctl (fieldP_wordCtl ..) (fieldD_wordCtl ..)⟩

theorem ins (pb gb m : Byte) (v : Bool) : Statement (.ins pb gb m v) :=
  fun _ => ⟨opcodeTable[41], List.getElem_mem _, beq_iff_eq.2 (ins_fits pb gb m v), by
    show Instr.ins (fieldPb (wordIns pb gb m v)) (fieldGb (wordIns pb gb m v)) (fieldM (wordIns pb gb m v))
      (fieldV (wordIns pb gb m v)) = _
    simp⟩

end Sys2Proof.Laws.EncodeFits
end

