-- ==== Sys2Proof/Tests/Slice0.lean ====
section
/-! SUPPORT. Tests of single operations, expected results from the patterns of 30_encoding.md and the vectors V of
95_test_vectors.md; and, for each statement with hypotheses, a concrete input that meets them. -/

namespace Sys2Proof.Tests

open Sys2Proof Sys2Proof.Machine

/-! ### Well-formedness: an address outside its row's block is refused (R87) -/

theorem test_wf_refuses_reads :
    [Instr.rdRam 0x2000, .rdPpuReg 0x1FFF, .rdPpuReg 0x4000, .rdOpen4000 0x3FFF, .rdOpen4000 0x4010, .rdOpen4010 0x400F,
     .rdOpen4010 0x4014, .rdOpen4018 0x4017, .rdOpen4018 0x4020, .rdCart4020 0x401F, .rdCart4020 0x4040,
     .rdCart4040 0x403F, .rdCart4040 0x4080, .rdCart4080 0x407F, .rdCart4080 0x4100, .rdCart4100 0x40FF,
     .rdCart4100 0x4200, .rdCart4200 0x41FF, .rdCart4200 0x4400, .rdCart4400 0x43FF, .rdCart4400 0x4800,
     .rdCart4800 0x47FF, .rdCart4800 0x5000, .rdCart5000 0x4FFF, .rdCart5000 0x6000, .rdCart6000 0x5FFF,
     .rdCart6000 0x8000, .rdCart8000 0x7FFF].any Instr.wf = false := by decide

theorem test_wf_refuses_writes :
    [Instr.wrRam 0x2000 1, .wrPpuReg 0x1FFF 1, .wrPpuReg 0x4000 1, .wrOpen4000 0x3FFF 1, .wrOpen4000 0x4010 1,
     .wrOpen4010 0x400F 1, .wrOpen4010 0x4014 1, .wrOpen4018 0x4017 1, .wrOpen4018 0x4020 1, .wrCart4020 0x401F 1,
     .wrCart4020 0x4040 1, .wrCart4040 0x403F 1, .wrCart4040 0x4080 1, .wrCart4080 0x407F 1, .wrCart4080 0x4100 1,
     .wrCart4100 0x40FF 1, .wrCart4100 0x4200 1, .wrCart4200 0x41FF 1, .wrCart4200 0x4400 1, .wrCart4400 0x43FF 1,
     .wrCart4400 0x4800 1, .wrCart4800 0x47FF 1, .wrCart4800 0x5000 1, .wrCart5000 0x4FFF 1, .wrCart5000 0x6000 1,
     .wrCart6000 0x5FFF 1, .wrCart6000 0x8000 1, .wrCart8000 0x7FFF 1].any Instr.wf = false := by decide

/-- Both ends of every block are legal (R87), which is also the witness of `Obligations.DecodeOfEncode`. -/
theorem witness_DecodeOfEncode :
    [Instr.rdRam 0x0000, .rdRam 0x1FFF, .rdPpuReg 0x2000, .rdPpuReg 0x3FFF, .rdOpen4000 0x4000, .rdOpen4000 0x400F,
     .rdOpen4010 0x4010, .rdOpen4010 0x4013, .rdOamDma, .rdOpen4015, .rdCtrl 0, .rdCtrl 1, .rdOpen4018 0x4018,
     .rdOpen4018 0x401F, .rdCart4020 0x4020, .rdCart4020 0x403F, .rdCart4040 0x4040, .rdCart4040 0x407F,
     .rdCart4080 0x4080, .rdCart4080 0x40FF, .rdCart4100 0x4100, .rdCart4100 0x41FF, .rdCart4200 0x4200,
     .rdCart4200 0x43FF, .rdCart4400 0x4400, .rdCart4400 0x47FF, .rdCart4800 0x4800, .rdCart4800 0x4FFF,
     .rdCart5000 0x5000, .rdCart5000 0x5FFF, .rdCart6000 0x6000, .rdCart6000 0x7FFF, .rdCart8000 0x8000,
     .rdCart8000 0xFFFF].all Instr.wf = true ∧
    [Instr.wrRam 0x0000 0, .wrRam 0x1FFF 255, .wrPpuReg 0x2000 0, .wrPpuReg 0x3FFF 0, .wrOpen4000 0x4000 0,
     .wrOpen4000 0x400F 0, .wrOpen4010 0x4010 0, .wrOpen4010 0x4013 0, .wrOamDma 2, .wrOpen4015 0, .wrStrobe 1,
     .wrOpen4017 0, .wrOpen4018 0x4018 0, .wrOpen4018 0x401F 0, .wrCart4020 0x4020 0, .wrCart4020 0x403F 0,
     .wrCart4040 0x4040 0, .wrCart4040 0x407F 0, .wrCart4080 0x4080 0, .wrCart4080 0x40FF 0, .wrCart4100 0x4100 0,
     .wrCart4100 0x41FF 0, .wrCart4200 0x4200 0, .wrCart4200 0x43FF 0, .wrCart4400 0x4400 0, .wrCart4400 0x47FF 0,
     .wrCart4800 0x4800 0, .wrCart4800 0x4FFF 0, .wrCart5000 0x5000 0, .wrCart5000 0x5FFF 0, .wrCart6000 0x6000 0,
     .wrCart6000 0x7FFF 0, .wrCart8000 0x8000 0, .wrCart8000 0xFFFF 255, .prd 0xFFFF, .pwr 0xFFFF 1, .clk, .ctl 1 2,
     .ins 0 255 4 true].all Instr.wf = true := by decide

/-! ### Decoding: a word written out from each row's pattern (R81 to R85, R87) -/

theorem test_decode_rdRam : decode 0b0000000101000100001100010000 = .ok (.rdRam 0x1443) := by decide
theorem test_decode_rdPpuReg : decode 0b0000001100001100100010000111 = .ok (.rdPpuReg 0x30C8) := by decide
theorem test_decode_rdOpen4000 : decode 0b0000010000000000111100001111 = .ok (.rdOpen4000 0x400F) := by decide
theorem test_decode_rdOpen4010 : decode 0b0000010000000001001001010110 = .ok (.rdOpen4010 0x4012) := by decide
theorem test_decode_rdOamDma : decode 0b0000010000000001010001111100 = .ok (.rdOamDma) := by decide
theorem test_decode_rdOpen4015 : decode 0b0000010000000001010111001111 = .ok (.rdOpen4015) := by decide
theorem test_decode_rdCtrl : decode 0b0000010000000001011101100100 = .ok (.rdCtrl 1) := by decide
theorem test_decode_rdOpen4018 : decode 0b0000010000000001110011100111 = .ok (.rdOpen4018 0x401C) := by decide
theorem test_decode_rdCart4020 : decode 0b0000010000000010111110000000 = .ok (.rdCart4020 0x402F) := by decide
theorem test_decode_rdCart4040 : decode 0b0000010000000101011001110011 = .ok (.rdCart4040 0x4056) := by decide
theorem test_decode_rdCart4080 : decode 0b0000010000001111011000010010 = .ok (.rdCart4080 0x40F6) := by decide
theorem test_decode_rdCart4100 : decode 0b0000010000010000100010111100 = .ok (.rdCart4100 0x4108) := by decide
theorem test_decode_rdCart4200 : decode 0b0000010000111111000111000100 = .ok (.rdCart4200 0x43F1) := by decide
theorem test_decode_rdCart4400 : decode 0b0000010001101101010001001100 = .ok (.rdCart4400 0x46D4) := by decide
theorem test_decode_rdCart4800 : decode 0b0000010011110111100001010101 = .ok (.rdCart4800 0x4F78) := by decide
theorem test_decode_rdCart5000 : decode 0b0000010110010101101110000001 = .ok (.rdCart5000 0x595B) := by decide
theorem test_decode_rdCart6000 : decode 0b0000011011000000100010101110 = .ok (.rdCart6000 0x6C08) := by decide
theorem test_decode_rdCart8000 : decode 0b0000101110001000001001100001 = .ok (.rdCart8000 0xB882) := by decide
theorem test_decode_wrRam : decode 0b0001000001001101110101010111 = .ok (.wrRam 0x04DD 0x57) := by decide
theorem test_decode_wrPpuReg : decode 0b0001001001001001010100110001 = .ok (.wrPpuReg 0x2495 0x31) := by decide
theorem test_decode_wrOpen4000 : decode 0b0001010000000000111011010111 = .ok (.wrOpen4000 0x400E 0xD7) := by decide
theorem test_decode_wrOpen4010 : decode 0b0001010000000001000111000001 = .ok (.wrOpen4010 0x4011 0xC1) := by decide
theorem test_decode_wrOamDma : decode 0b0001010000000001010010010111 = .ok (.wrOamDma 0x97) := by decide
theorem test_decode_wrOpen4015 : decode 0b0001010000000001010101101001 = .ok (.wrOpen4015 0x69) := by decide
theorem test_decode_wrStrobe : decode 0b0001010000000001011001001000 = .ok (.wrStrobe 0x48) := by decide
theorem test_decode_wrOpen4017 : decode 0b0001010000000001011110101110 = .ok (.wrOpen4017 0xAE) := by decide
theorem test_decode_wrOpen4018 : decode 0b0001010000000001100001000110 = .ok (.wrOpen4018 0x4018 0x46) := by decide
theorem test_decode_wrCart4020 : decode 0b0001010000000011101101000010 = .ok (.wrCart4020 0x403B 0x42) := by decide
theorem test_decode_wrCart4040 : decode 0b0001010000000110111100100110 = .ok (.wrCart4040 0x406F 0x26) := by decide
theorem test_decode_wrCart4080 : decode 0b0001010000001000110001101010 = .ok (.wrCart4080 0x408C 0x6A) := by decide
theorem test_decode_wrCart4100 : decode 0b0001010000010110111100101001 = .ok (.wrCart4100 0x416F 0x29) := by decide
theorem test_decode_wrCart4200 : decode 0b0001010000110110000100101011 = .ok (.wrCart4200 0x4361 0x2B) := by decide
theorem test_decode_wrCart4400 : decode 0b0001010001000111010010000000 = .ok (.wrCart4400 0x4474 0x80) := by decide
theorem test_decode_wrCart4800 : decode 0b0001010011011000110100011010 = .ok (.wrCart4800 0x4D8D 0x1A) := by decide
theorem test_decode_wrCart5000 : decode 0b0001010100111011000011100101 = .ok (.wrCart5000 0x53B0 0xE5) := by decide
theorem test_decode_wrCart6000 : decode 0b0001011100111111001010110111 = .ok (.wrCart6000 0x73F2 0xB7) := by decide
theorem test_decode_wrCart8000 : decode 0b0001100000110101011100011110 = .ok (.wrCart8000 0x8357 0x1E) := by decide
theorem test_decode_prd : decode 0b0010111101011100011101101110 = .ok (.prd 0xF5C7) := by decide
theorem test_decode_pwr : decode 0b0011100100111011010001101100 = .ok (.pwr 0x93B4 0x6C) := by decide
theorem test_decode_clk : decode 0b0100000000000000000000000000 = .ok (.clk) := by decide
theorem test_decode_ctl : decode 0b0110000000000000000011111111 = .ok (.ctl 0 0xFF) := by decide
theorem test_decode_ins : decode 0b1000111000001011110000010101 = .ok (.ins 0x70 0x5E 0x0A true) := by decide

/-- The rows do not overlap (R87): no word fits two of them. -/
theorem test_rows_disjoint :
    opcodeTable.Pairwise (fun r q => (r.mask &&& q.mask) &&& (r.pat ^^^ q.pat) ≠ 0) := by decide

/-- V70 to V73, and R64: what is no operation word is rejected by name. -/
theorem test_reserved_words :
    decode 0xA000000 = .error (.reservedClass 5) ∧ decode 0xC000000 = .error (.reservedClass 6) ∧
    decode 0xE000000 = .error (.reservedClass 7) ∧ decode 0xFFFFFFF = .error (.reservedClass 7) ∧
    decode 0x4000001 = .error .clkReservedBits ∧ decode 0x5000000 = .error .clkReservedBits ∧
    decode 0x6000200 = .error .ctlReservedBits ∧ decode 0x7000000 = .error .ctlReservedBits ∧
    decodeWord 0x10000000 = .error .tooWide := by decide

/-- V14, V73, V74, V75: legal words at the edges. -/
theorem test_edge_words :
    decode 0x00001FF = .ok (.rdRam 0x0001) ∧ decode 0x60001FF = .ok (.ctl 1 0xFF) ∧
    decode 0x0000000 = .ok (.rdRam 0x0000) ∧ decode 0x1FFFFFF = .ok (.wrCart8000 0xFFFF 0xFF) := by decide

/-- The words of the pseudo-operations (R91). -/
theorem test_pseudo :
    pseudoSlot = [0x4000000, 0x4000000, 0x4000000] ∧ pseudoStrobe = [0x1401601, 0x1401600] ∧
    pseudoOamDma 0x02 = [0x1401402] := by decide

/-- The word of the largest header (V68), through the table's numbering. -/
theorem test_table_word : decodeTableWord 32 0x9FFFE01 = some (.ins 255 255 0 true) := by decide

/-! ### The stub agents of 95_test_vectors.md -/

/-- The stub registers, coded in the Picture Unit's inner number: register r is digit r in base 256. -/
def stubReg (u : PictureUnit) (r : BitVec 3) : Byte := BitVec.ofNat 8 (u.inner / 256 ^ r.toNat)

/-- The idle stubs and the default parameters; RAM page 2 holds 255 - i, the object memory the marker 0xDD (V40). -/
def stub : Env where
  openBusFill := 0x00
  ctrlFillBit := true
  m0PpuWriteAccept := true
  ramInit := fun j => if j / 256 = 2 then BitVec.ofNat 8 (0x2FF - j) else 0xEE
  oamInit := fun _ => 0xDD
  ppuTick := fun u => .done u.nmiPending u.frameComplete u.inner ()
  ppuRegRead := fun r u => .done u.nmiPending u.frameComplete u.inner (stubReg u r)
  ppuRegWrite := fun r v u => .done u.nmiPending u.frameComplete
    (u.inner + 256 ^ r.toNat * v.toNat - 256 ^ r.toNat * (stubReg u r).toNat) ()
  ppuTakeNmi := fun u => .done u.nmiPending u.frameComplete u.inner
  ppuOamWrite := fun _ _ u => .done u.nmiPending u.frameComplete u.inner
  ppuFrameComplete := fun u => .done u.nmiPending u.frameComplete u.inner
  procStep := fun p => .done p

/-- A machine after reset, the draws at markers. -/
def start : State where
  ram := []
  tick := 0
  dma := { page := 0, cursor := 0, data := 0x55, active := false, dummy := false, phase := false }
  ctrl := { port0 := 0xA5, port1 := 0x3C }
  shift := { port0 := 0x11, port1 := 0x22 }
  strobe := false
  cart := none
  ppu := { oam := [], nmiPending := false, frameComplete := false, inner := 0 }
  proc := { nmiAsserts := 0, inner := 0 }
  pending := []
  payload := { loaderOk := false, prg := { size := 0, cells := [] }, chr := { size := 0, cells := [] } }
  reply := .idle

/-- A Cartridge of the given header bytes and cells. -/
def cartOf (pb gb : Byte) (v : Bool) (prg chr : Memory) : Cartridge where
  header := { prgBanks := pb, chrBanks := gb, mapperId := 0, mirrorVertical := v }
  prg := { size := pb.toNat * 16384, cells := prg }
  chr := { size := gb.toNat * 8192, cells := chr }
  mapper := .mapper0 pb gb

/-- Cartridge A, at the offsets the vectors read. -/
def cartA : Cartridge :=
  cartOf 1 1 false [(0x20, 0x20), (0x2000, 0x20), (0x3FFC, 0xC3), (0x3FFF, 0xC0)] [(0, 1), (0x10, 0x31), (0x1FFF, 0xFE)]

/-- Cartridge B, at the offsets the vectors read. -/
def cartB : Cartridge := cartOf 2 0 true [(0x3FFF, 0x7F), (0x4000, 0x80), (0x4020, 0x80), (0x7FFF, 0xFF)] []

/-- Cartridge C, at the offsets the vectors read and one of bank 2. -/
def cartC : Cartridge := cartOf 4 2 false [(0, 0x10), (0x4000, 0x11), (0x7FFF, 0x11), (0x8000, 0x12)] []

/-- `start` with a Cartridge. -/
def inserted (c : Cartridge) : State := { start with cart := some c }

/-- What a processor-side read returns, with the stubs. -/
def rd (a : Addr) (s : State) : Byte := (busRead stub a s).1

/-- `start` in a transfer from page 2. -/
def inTransfer (tick : Nat) (cursor data : Byte) (dummy phase : Bool) : State :=
  { start with tick := tick,
               dma := { page := 2, cursor := cursor, data := data, active := true, dummy := dummy, phase := phase } }

/-! ### Processor-side decode -/

/-- V1, V2: a byte of RAM and its three mirrors. -/
theorem test_ram_mirrors :
    [0x0001, 0x0801, 0x1001, 0x1801].map (fun a => rd a (busWrite stub 0x0001 0xAB start)) =
      [0xAB, 0xAB, 0xAB, 0xAB] := by decide

/-- V3: the last address is the last cell. -/
theorem test_ram_last : (busWrite stub 0x1FFF 0x5A start).ram = [(0x7FF, 0x5A)] := by decide

/-- V5: three aliases of register 0; S2: register 1. -/
theorem test_ppureg_write :
    [0x2000, 0x2008, 0x3FF8].map (fun a => (busWrite stub a 0x80 start).ppu.inner) = [0x80, 0x80, 0x80] ∧
    (busWrite stub 0x3FF9 0x10 start).ppu.inner = 0x1000 := by decide

/-- V6: the first and last alias of register 7; V13: the boundary with RAM. -/
theorem test_ppureg_read :
    rd 0x2007 (busWrite stub 0x3FFF 0x77 start) = 0x77 ∧ rd 0x3FFF (busWrite stub 0x2007 0x66 start) = 0x66 ∧
    rd 0x2000 (busWrite stub 0x1FFF 0x5A start) = 0x00 := by decide

/-- V7, V8: unclaimed reads return open bus and change nothing. -/
theorem test_open_reads :
    [0x4000, 0x400F, 0x4010, 0x4013, 0x4014, 0x4015, 0x4018, 0x401F].map (fun a => busRead stub a start) =
      List.replicate 8 (0x00, start) := by decide

/-- V9: unclaimed writes change nothing. -/
theorem test_open_writes :
    [0x4000, 0x4013, 0x4015, 0x4017, 0x401F].map (fun a => busWrite stub a 0xFF start) =
      List.replicate 5 start := by decide

/-- V10, V11: no Cartridge. -/
theorem test_no_cartridge :
    [0x4020, 0x7FFF, 0x8000, 0xFFFF].map (fun a => rd a start) = [0, 0, 0, 0] ∧
    busWrite stub 0x8000 0x12 start = start ∧ busWrite stub 0x4020 0x12 start = start := by decide

/-! ### Controller ports -/

/-- V20: the first write latches both ports; V23, V24: only bit 0 of the data counts. -/
theorem test_strobe :
    (busWrite stub 0x4016 1 start).shift = { port0 := 0xA5, port1 := 0x3C } ∧
    [1, 0, 0xFE, 0x03].map (fun v => (busWrite stub 0x4016 v start).strobe) = [true, false, false, true] := by decide

/-- V20: the first read of port 0 returns 1 and leaves 0x4B; V21: of port 1, 0 and 0x79. -/
theorem test_ctrl_read :
    (busRead stub 0x4016 (busWrite stub 0x4016 0 start)).1 = 1 ∧
    (busRead stub 0x4016 (busWrite stub 0x4016 0 start)).2.shift = { port0 := 0x4B, port1 := 0x3C } ∧
    (busRead stub 0x4017 (busWrite stub 0x4016 0 start)).1 = 0 ∧
    (busRead stub 0x4017 (busWrite stub 0x4016 0 start)).2.shift = { port0 := 0xA5, port1 := 0x79 } := by decide

/-- V22: in strobe mode a read returns bit 7 of the live byte, whatever was latched. -/
theorem test_ctrl_live : rd 0x4016 { start with strobe := true, shift := { port0 := 0, port1 := 0 } } = 1 := by decide

/-- V26: a fill bit of 0. -/
theorem test_ctrl_fill :
    (busRead { stub with ctrlFillBit := false } 0x4017 { start with shift := { port0 := 0, port1 := 0xFF } }).2.shift =
      { port0 := 0, port1 := 0xFE } := by decide

/-! ### Clock and DMA -/

/-- V40, V50: the trigger, also during a transfer. -/
theorem test_trigger :
    (busWrite stub 0x4014 0x03 (inTransfer 10 1 0xFE false true)).dma =
      { page := 0x03, cursor := 0, data := 0xFE, active := true, dummy := true, phase := false } := by decide

/-- V41, V41b: the dummy sub-step at tick 0, and no slot at tick 1. -/
theorem test_dummy :
    clock stub (inTransfer 0 0 0x55 true false) = inTransfer 1 0 0x55 false false ∧
    clock stub (inTransfer 1 0 0x55 false false) = inTransfer 2 0 0x55 false false := by decide

/-- V42: the read of 0x0200 at tick 3. -/
theorem test_dma_read : clock stub (inTransfer 3 0 0x55 false false) = inTransfer 4 0 0xFF false true := by decide

/-- V43: the write of object memory at tick 6. -/
theorem test_dma_write :
    clock stub (inTransfer 6 0 0xFF false true) =
      { inTransfer 7 1 0xFF false false with
        ppu := { oam := [(0, 0xFF)], nmiPending := false, frameComplete := false, inner := 0 } } := by decide

/-- V46: the last write wraps the cursor and ends the transfer. -/
theorem test_dma_end :
    (clock stub (inTransfer 1536 0xFF 0x00 false true)).dma =
      { page := 2, cursor := 0, data := 0x00, active := false, dummy := false, phase := false } ∧
    (clock stub (inTransfer 1536 0xFF 0x00 false true)).ppu.oam = [(255, 0x00)] := by decide

/-- V51: a DMA read of a controller port has its side effect, and one of 0x4014 does not trigger. -/
theorem test_dma_side_effect :
    (clock stub { inTransfer 3 0x16 0x55 false false with
      shift := { port0 := 0xA5, port1 := 0x3C },
      dma := { page := 0x40, cursor := 0x16, data := 0x55, active := true, dummy := false, phase := false } }).shift =
      { port0 := 0x4B, port1 := 0x3C } := by decide

/-- V54: the interrupt forward in a clock step with no slot. -/
theorem test_nmi_forward :
    (clock { stub with ppuTick := fun u => .done true u.frameComplete u.inner () } { start with tick := 4 }).proc =
      { nmiAsserts := 1, inner := 0 } := by decide

/-- R238: a condition that arises in a dot is forwarded before the Processor's slot of the same clock step. -/
theorem test_nmi_before_slot :
    (clock { stub with
      ppuTick := fun u => .done true u.frameComplete u.inner (),
      procStep := fun p => .done { nmiAsserts := 0, inner := p.nmiAsserts } } start).proc.inner = 1 := by decide

/-- R103, R174, R175: a register read whose call writes and then reads graphics storage. -/
theorem test_nested_port :
    busRead { stub with ppuRegRead := fun _ u => .write 0x2010 0x55 (.read 0x0010 (fun b =>
      .done u.nmiPending u.frameComplete u.inner b)) } 0x2007 (inserted cartA) =
      (0x55, { start with cart := slotPpuWrite stub (some cartA) 0x0010 0x55 }) := by decide

/-- R213: the host reads the signal, here of a Picture Unit that clears it and writes graphics storage when it is asked. -/
theorem test_frame_signal :
    (fun r : Bool × State => (r.1, r.2.ppu.frameComplete, r.2.cart))
      (ppuFrameComplete { stub with ppuFrameComplete := fun u => .write 0x0010 0x55 (.done u.nmiPending false u.inner) }
        { inserted cartA with ppu := { start.ppu with frameComplete := true } }) =
      (true, false, slotPpuWrite stub (some cartA) 0x0010 0x55) := by decide

/-- D15: transactions inside `PpuTakeNmi` and `OamWrite` reach the slot; the byte stored is R147's. -/
theorem test_nested_calls :
    (fun s : State => (s.cart, s.ppu.oam))
      (clock { stub with
        ppuTakeNmi := fun u => .write 0x0010 0x55 (.done u.nmiPending u.frameComplete u.inner),
        ppuOamWrite := fun _ v u => .read 0x0010 (fun b => .write 0x0011 (v ^^^ b)
          (.done u.nmiPending u.frameComplete u.inner)) }
        { inTransfer 6 0 0xFF false true with cart := some cartA }) =
      (slotPpuWrite stub (slotPpuWrite stub (some cartA) 0x0010 0x55) 0x0011 0xAA, [(0, 0xFF)]) := by decide

/-- P6 step 3: a Processor that triggers the transfer goes on with its own transactions in the same slot. -/
theorem test_proc_slot :
    (fun s : State => (s.dma.page, s.dma.active, s.ram, s.proc.inner))
      (clock { stub with procStep := fun p => .write 0x4014 0x03 (.write 0x0301 0x43 (.read 0x0301 (fun b =>
        .done { p with inner := b.toNat }))) } { start with tick := 3 }) =
      (0x03, true, [(0x301, 0x43)], 0x43) := by decide

/-! ### Cartridge and mapper 0 -/

/-- V12, V30, V31, V31b: one program bank. -/
theorem test_cart_one_bank :
    [0x401F, 0x4020, 0x8000, 0xC000, 0x8020, 0xC020, 0xFFFC, 0xBFFC, 0x7FFC, 0xFFFF, 0x6000].map
      (fun a => rd a (inserted cartA)) =
      [0x00, 0x20, 0x00, 0x00, 0x20, 0x20, 0xC3, 0xC3, 0xC3, 0xC0, 0x20] := by decide

/-- V33, V34, V35: two banks, and four. -/
theorem test_cart_more_banks :
    [0x8000, 0xC000, 0x4020, 0xC020, 0x7FFF, 0xFFFF, 0xBFFF].map (fun a => rd a (inserted cartB)) =
      [0x00, 0x80, 0x80, 0x80, 0xFF, 0xFF, 0x7F] ∧
    [0x8000, 0xC000, 0xFFFF].map (fun a => rd a (inserted cartC)) = [0x10, 0x11, 0x11] := by decide

/-- V32: a write of the window is discarded. -/
theorem test_cart_write : busWrite stub 0x8000 0x99 (inserted cartA) = inserted cartA := by decide

/-- V36, V37, V39b, V39c: reads of graphics storage. -/
theorem test_port_read :
    [0x0000, 0x0010, 0x1FFF, 0x2010, 0x3FFF, 0xFFFF].map (slotPpuRead stub (some cartA)) =
      [0x01, 0x31, 0xFE, 0x31, 0xFE, 0xFE] ∧
    slotPpuRead stub (some cartB) 0 = 0 ∧ slotPpuRead stub none 0 = 0 := by decide

/-- V38, V39, V39b, V39c: writes of graphics storage. -/
theorem test_port_write :
    slotPpuRead stub (slotPpuWrite stub (some cartA) 0x0010 0x55) 0x2010 = 0x55 ∧
    slotPpuWrite { stub with m0PpuWriteAccept := false } (some cartA) 0x0010 0x55 = some cartA ∧
    slotPpuWrite stub (some cartB) 0 0x12 = some cartB ∧ slotPpuWrite stub none 0 1 = none := by decide

/-! ### Host operations -/

/-- A payload of the given verdict and lengths, all bytes zero. -/
def payloadOf (ok : Bool) (prg chr : Nat) : Payload where
  loaderOk := ok
  prg := { size := prg, cells := [] }
  chr := { size := chr, cells := [] }

/-- The reply and the presence of a Cartridge after an `INS`. -/
def insReply (pb gb m : Byte) (v : Bool) (p : Payload) : Reply × Bool :=
  let s := insertCart { prgBanks := pb, chrBanks := gb, mapperId := m, mirrorVertical := v } { start with payload := p }
  (s.reply, s.cart.isSome)

/-- V60, V67, V68: valid images. -/
theorem test_ins_success :
    insReply 1 1 0 false (payloadOf true 16384 8192) = (.done, true) ∧
    insReply 1 0 0 false (payloadOf true 16384 0) = (.done, true) ∧
    insReply 255 255 0 true (payloadOf true 4177920 2088960) = (.done, true) := by decide

/-- V61 to V66: the conditions, in the order of the checks. -/
theorem test_ins_conditions :
    insReply 1 1 0 false (payloadOf false 16384 8192) = (.raised (.cartInvalid ⟨1, 1, 0, false⟩), false) ∧
    insReply 0 1 0 false (payloadOf true 0 8192) = (.raised (.cartInvalid ⟨0, 1, 0, false⟩), false) ∧
    insReply 1 1 0 false (payloadOf true 16383 8192) = (.raised (.cartInvalid ⟨1, 1, 0, false⟩), false) ∧
    insReply 1 1 4 false (payloadOf true 16384 8192) = (.raised (.mapperUnsupported 4), false) ∧
    insReply 0 0 255 true (payloadOf true 0 0) = (.raised (.cartInvalid ⟨0, 0, 255, true⟩), false) ∧
    insReply 1 1 1 false (payloadOf false 16384 8192) = (.raised (.cartInvalid ⟨1, 1, 1, false⟩), false) := by decide

/-- R211, through a step: the word `0x60001FF` is `CTL 1, 0xFF`. -/
theorem test_ctl_step :
    step (start.withFetchWord 32 0x60001FF) =
      .next { start with ctrl := { port0 := 0xA5, port1 := 0xFF }, payload := payloadOf true 0 0, reply := .done } := rfl

/-- V60 through a step: the word `0x8020200` inserts. -/
theorem test_ins_step :
    step (start.withFetchWord 32 0x8020200) =
      .next { start with cart := some (cartOf 1 1 false [] []), payload := payloadOf true 16384 8192,
                         reply := .done } := rfl

/-- V70 through a step: refused. -/
theorem test_reserved_step :
    step (start.withFetchWord 32 0xA000000) = .refused (.addrContract (.reservedClass 5)) := rfl

/-! ### Inputs that meet the hypotheses of the statements -/

/-- `start` with one operation issued. -/
def issued (w : Nat) : State := { start with pending := [.word w (payloadOf true 16384 8192)] }

theorem cartA_wf : cartA.wf := ⟨rfl, rfl, by decide, ⟨.mapper0, rfl, rfl⟩, by decide, by decide⟩
theorem cartB_wf : cartB.wf := ⟨rfl, rfl, by decide, ⟨.mapper0, rfl, rfl⟩, by decide, by decide⟩

theorem inserted_wf : ∀ c, (inserted cartA).cart = some c → c.wf := by
  intro c h; cases h; exact cartA_wf

/-- A read word with data bits set, and one of each other kind. -/
theorem witness_EncodeOfDecode :
    decode 0x00001FF = .ok (.rdRam 0x0001) ∧ decode 0x2FFFFFF = .ok (.prd 0xFFFF) ∧
    decode 0x1FFFFFF = .ok (.wrCart8000 0xFFFF 0xFF) ∧ decode 0x4000000 = .ok .clk := by decide

theorem witness_EveryWordSelectsOneRow :
    ¬ ReservedWord 0x4000000 ∧ ¬ ReservedWord 0x60001FF ∧ ReservedWord 0x4000001 ∧ ReservedWord 0x6000200 ∧
    ReservedWord 0xA000000 ∧ ReservedWord 0xC000000 ∧ ReservedWord 0xFFFFFFF := by
  simp only [ReservedWord]; decide

theorem witness_ReservedWordsAreRefused :
    ReservedWord 0x5000000 ∧
    (issued 0x5000000).pending = [.word (0x5000000 : OpWord).toNat (payloadOf true 16384 8192)] := by
  simp only [ReservedWord]; decide

theorem witness_StepRunsDecodedOperation :
    (issued 0x0FFFF00).pending = [.word 0x0FFFF00 (payloadOf true 16384 8192)] ∧ 0x0FFFF00 < 2 ^ 28 ∧
    decode (BitVec.ofNat 28 0x0FFFF00) = .ok (.rdCart8000 0xFFFF) ∧ start.pending = [] := by decide

theorem witness_RamMirrors : (0x0000 : Addr).toNat ≤ 0x1FFF ∧ (0x1FFF : Addr).toNat ≤ 0x1FFF := by decide

theorem witness_PpuRegMirrors :
    (0x2000 ≤ (0x2000 : Addr).toNat ∧ (0x2000 : Addr).toNat ≤ 0x3FFF) ∧
    (0x2000 ≤ (0x3FFF : Addr).toNat ∧ (0x3FFF : Addr).toNat ≤ 0x3FFF) := by decide

theorem witness_ReadOps : Instr.rdOpen4018 0x401F ∈ openReadOps 0x401F ∧ Instr.wrOpen4017 0 ∈ openWriteOps 0x4017 0 ∧
    Instr.rdCart8000 0xFFFF ∈ windowReadOps 0xFFFF ∧ Instr.wrCart4020 0x4020 1 ∈ windowWriteOps 0x4020 1 := by decide

theorem witness_WindowReadsProgramStorage :
    (∀ c, (inserted cartA).cart = some c → c.wf) ∧ (∀ c, start.cart = some c → c.wf) :=
  ⟨inserted_wf, by intro c h; cases h⟩

theorem witness_ProgramStorageMirrors :
    ((inserted cartA).cart = some cartA ∧ cartA.wf ∧ (0x4020 : Addr).toNat % 16384 = (0xC020 : Addr).toNat % 16384) ∧
    ((inserted cartB).cart = some cartB ∧ cartB.wf ∧ cartB.header.prgBanks ≠ 1 ∧
      (0x4020 : Addr).toNat % 32768 = (0xC020 : Addr).toNat % 32768) :=
  ⟨⟨rfl, cartA_wf, rfl⟩, rfl, cartB_wf, by decide, rfl⟩

theorem witness_TransactionsChangeOnlyWhatTheyName :
    Instr.wrRam 1 2 ≠ .clk ∧ (∃ t, exec (.wrRam 1 2) start = .next t) ∧ Instr.prd 0 ≠ .clk ∧
    ∃ t, exec (.prd 0) start = .next t :=
  ⟨by decide, ⟨_, rfl⟩, by decide, _, rfl⟩

theorem witness_PortWriteStoresGraphicsByte :
    start.cart = none ∧ ((inserted cartB).cart = some cartB ∧ cartB.wf ∧ cartB.header.chrBanks = 0) ∧
    ((inserted cartA).cart = some cartA ∧ cartA.wf ∧ cartA.header.chrBanks ≠ 0) :=
  ⟨rfl, ⟨rfl, cartB_wf, rfl⟩, rfl, cartA_wf, by decide⟩

theorem witness_CartridgeKeptByEveryOtherOperation :
    (∀ pb gb m v, Instr.pwr 0x10 0x55 ≠ .ins pb gb m v) ∧ ∃ t, exec (.pwr 0x10 0x55) (inserted cartA) = .next t :=
  ⟨by intros; simp, _, rfl⟩

/-- Of `InterruptForwardedOnce` and `ProcessorStalledDuringTransfer`: the Processor's slot, no slot, and a transfer whose
sub-step is the dummy, a read and a write. -/
theorem witness_InterruptForwardedOnce :
    (start.tick % 3 = 0 ∧ start.dma.active = false) ∧ (start.setTick 1).tick % 3 ≠ 0 ∧
    [inTransfer 0 0 0 true false, inTransfer 3 0 0 false false, inTransfer 6 0 0 false true].map
      (fun s => (s.tick % 3, s.dma.active, s.dma.dummy || s.dma.phase)) =
      [(0, true, true), (0, true, false), (0, true, true)] := by decide

/-- Of `DmaDummySlot`, `DmaReadSlot` and `DmaWriteSlot`, the last at the end of a transfer too. -/
theorem witness_DmaSlots :
    (fun s : State => (s.tick % 3, s.dma.active, s.dma.dummy)) (inTransfer 0 0 0 true false) = (0, true, true) ∧
    (fun s : State => (s.tick % 3, s.dma.active, s.dma.dummy, s.dma.phase)) (inTransfer 3 0 0 false false) =
      (0, true, false, false) ∧
    (fun s : State => (s.tick % 3, s.dma.active, s.dma.dummy, s.dma.phase)) (inTransfer 1536 255 0 false true) =
      (0, true, false, true) := by decide

/-- Of `TransferTakes513Slots`, at each of the three alignments. -/
theorem witness_TransferTakes513Slots :
    (inTransfer 0 0 0x55 true false).Armed ∧ (inTransfer 1 0 0x55 true false).Armed ∧
    (inTransfer 2 0 0x55 true false).Armed := by
  simp only [State.Armed]; decide

/-- `start` with a transfer from a page triggered. -/
def armedFrom (page : Byte) : State := busWrite stub 0x4014 page (inserted cartA)

/-- A RAM page, and pages of the cartridge window, the first of them included. -/
theorem witness_TransferCopiesPage :
    (∀ u, oamSilent (stub.ppuTick u)) ∧
    ((armedFrom 0x1F).Armed ∧ (armedFrom 0x1F).dma.page.toNat < 0x20) ∧
    ((armedFrom 0x41).Armed ∧ 0x41 ≤ (armedFrom 0x41).dma.page.toNat) ∧
    ((armedFrom 0xFF).Armed ∧ 0x41 ≤ (armedFrom 0xFF).dma.page.toNat) := by
  refine ⟨fun _ => trivial, ?_⟩
  simp only [State.Armed]; decide

/-- A transfer about to write its second byte, the first one copied. -/
theorem witness_ClockStepKeepsCopyProgress :
    (∀ u, oamSilent (stub.ppuTick u)) ∧ (inTransfer 12 1 0xFE false true).dma.active = true ∧
    { inTransfer 12 1 0xFE false true with ppu := { start.ppu with oam := [(0, 0xFF)] } }.CopyInv stub := by
  refine ⟨fun _ => trivial, rfl, fun _ _ => ⟨fun j hj => ?_, fun _ => by decide⟩⟩
  have h : j.toNat < 1 := hj
  obtain rfl : j = 0 := BitVec.eq_of_toNat_eq (by simp; omega)
  decide

theorem witness_OnlyTheLastWriteEndsTransfer :
    ∃ t, exec .clk (inTransfer 1536 255 0 false true) = .next t ∧
      (inTransfer 1536 255 0 false true).dma.active = true ∧ t.dma.active = false := by
  refine ⟨_, rfl, rfl, ?_⟩
  simp [clock, tickPhase, slotPhase, slotAt, inTransfer, dmaSubStep, dmaWrite, Dma.advance, cursorNext]

theorem witness_TickCountsClockSteps :
    (∃ t, exec .clk start = .next t) ∧ ∃ t, exec (.ctl 0 1) start = .next t := ⟨⟨_, rfl⟩, _, rfl⟩

theorem witness_InsertInstallsCartridge :
    (payloadOf true 16384 0).loaderOk = true ∧ 1 ≤ (1 : Byte).toNat ∧
    (payloadOf true 16384 0).prg.size = (1 : Byte).toNat * 16384 ∧
    (payloadOf true 16384 0).chr.size = (0 : Byte).toNat * 8192 := by decide

/-- Each of the four ways an image is invalid (V61, V62, V63). -/
theorem witness_InvalidImageIsRefused :
    (payloadOf false 16384 8192).loaderOk = false ∧ (0 : Byte).toNat = 0 ∧
    (payloadOf true 16383 8192).prg.size ≠ (1 : Byte).toNat * 16384 ∧
    (payloadOf true 16384 8191).chr.size ≠ (1 : Byte).toNat * 8192 := by decide

theorem witness_UnknownMapperIsRefused :
    (payloadOf true 16384 8192).loaderOk = true ∧ (1 : Byte).toNat ≠ 0 ∧
    (payloadOf true 16384 8192).prg.size = (1 : Byte).toNat * 16384 ∧
    (payloadOf true 16384 8192).chr.size = (1 : Byte).toNat * 8192 ∧ (4 : Byte) ≠ 0 := by decide

theorem witness_StepKeepsInvariant :
    { inserted cartA with pending := [.word 0x4000000 (payloadOf true 0 0)] }.Inv Config.env ∧
    ∃ t, step { inserted cartA with pending := [.word 0x4000000 (payloadOf true 0 0)] } = .next t := by
  refine ⟨⟨rfl, rfl, inserted_wf, (by intro h; cases h), ⟨by decide, by decide⟩, ?_⟩, _, rfl⟩
  intro op h
  simp only [List.mem_singleton] at h
  subst h
  exact ⟨by decide, by decide⟩

theorem witness_ReachableStatesMeetInvariant :
    ∃ t, Reachable t ∧ step (State.reset.setPending [.word 0x4000000 (payloadOf true 0 0)]) = .next t := by
  refine ⟨_, ?_, rfl⟩
  refine Reachable.step (State.reset.setPending [.word 0x4000000 (payloadOf true 0 0)]) _
    (Reachable.issue State.reset [.word 0x4000000 (payloadOf true 0 0)] .reset ?_) rfl
  intro op h
  simp only [List.mem_singleton] at h
  subst h
  exact ⟨by decide, by decide⟩

theorem witness_StepStopsOnlyOnReservedWords :
    ¬ Goes (issued 0x5000000) ∧ ¬ Goes (issued 0x10000000) ∧ Goes (issued 0x4000000) ∧ Goes start :=
  ⟨(fun ⟨_, h⟩ => by cases h), (fun ⟨_, h⟩ => by cases h), ⟨_, rfl⟩, _, rfl⟩

theorem witness_HostReadsFrameSignal :
    (start.setPending [.frameComplete, .word 0x4000000 (payloadOf true 0 0)]).pending =
      .frameComplete :: [.word 0x4000000 (payloadOf true 0 0)] := rfl

theorem witness_CanonicalMemoriesAreEqual :
    Memory.wf imageInit 16384 [(0x20, 0x20), (0x3FFF, 0xC0)] = true ∧
    (∀ j, Memory.read imageInit [(0x20, 0x20), (0x3FFF, 0xC0)] j =
      Memory.read imageInit (Memory.write imageInit [(0x3FFF, 0xC0)] 0x20 0x20) j) ∧
    Memory.wf imageInit 16384 (Memory.write imageInit [(0x3FFF, 0xC0)] 0x20 0x20) = true :=
  ⟨by decide, fun _ => rfl, by decide⟩

end Sys2Proof.Tests
end

/-! The processor-side accesses to RAM and to the Picture Unit's registers (40_bus_decode.md R101 to R104): what each
of the four operations answers, through the shared access it performs and the operand in numbers. -/

namespace Sys2Proof.Machine

theorem exec_rdRam (a : Addr) (s : State) : exec (.rdRam a) s = answer (ramRead Config.env a s) := rfl

theorem exec_wrRam (a : Addr) (v : Byte) (s : State) : exec (.wrRam a v) s = finish (ramWrite Config.env a v s) := rfl

theorem exec_rdPpuReg (a : Addr) (s : State) : exec (.rdPpuReg a) s = answer (ppuRegRead Config.env a s) := rfl

theorem exec_wrPpuReg (a : Addr) (v : Byte) (s : State) :
    exec (.wrPpuReg a v) s = finish (ppuRegWrite Config.env a v s) := rfl

@[simp] theorem ramRead_value (E : Env) (a : Addr) (s : State) :
    (ramRead E a s).1 = Memory.read E.ramInit s.ram (a.toNat % 2048) :=
  congrArg (Memory.read E.ramInit s.ram) (ramIndex_eq a)

/-- What a store to RAM does to every byte of it (R102). -/
theorem read_ramWrite (E : Env) (a : Addr) (v : Byte) (s : State) (j : Nat) :
    Memory.read E.ramInit (ramWrite E a v s).ram j =
      if j = a.toNat % 2048 then v else Memory.read E.ramInit s.ram j := by
  rw [← ramIndex_eq]
  exact Memory.read_write s.ram (ramIndex a) j v

/-- The register an address selects is the address modulo 8, as a 3-bit number (R86). -/
theorem ppuRegOf_eq (a : Addr) : ppuRegOf a = BitVec.ofNat 3 (a.toNat % 8) := by
  rw [← ppuRegOf_toNat, BitVec.ofNat_toNat, BitVec.setWidth_eq]

theorem ppuRegRead_eq (E : Env) (a : Addr) (s : State) :
    ppuRegRead E a s = ppuCall E (E.ppuRegRead (BitVec.ofNat 3 (a.toNat % 8)) s.ppu) s := by
  rw [← ppuRegOf_eq]; rfl

theorem ppuRegWrite_eq (E : Env) (a : Addr) (v : Byte) (s : State) :
    ppuRegWrite E a v s = (ppuCall E (E.ppuRegWrite (BitVec.ofNat 3 (a.toNat % 8)) v s.ppu) s).2 := by
  rw [← ppuRegOf_eq]; rfl

/-- Settles O10: the RAM left is that of the shared store, whose every byte `read_ramWrite` gives. -/
theorem ramWriteStoresOneByte : Obligations.RamWriteStoresOneByte := fun a v s =>
  ⟨(ramWrite Config.env a v s).ram, exec_wrRam a v s, read_ramWrite Config.env a v s⟩

/-- Settles O9: the shared read keeps the state, and its byte is the one at the address modulo 2048. -/
theorem ramReadReturnsByte : Obligations.RamReadReturnsByte := by
  intro a s
  rw [exec_rdRam, answer, ramRead_state, ramRead_value]
  rfl

/-- Settles O12: the shared register read is the Picture Unit's call for the address modulo 8. -/
theorem ppuRegReadForwards : Obligations.PpuRegReadForwards := by
  intro a s
  rw [exec_rdPpuReg, ppuRegRead_eq]
  rfl

/-- Settles O13: the shared register write is the Picture Unit's call for the address modulo 8 and the byte. -/
theorem ppuRegWriteForwards : Obligations.PpuRegWriteForwards := by
  intro a v s
  rw [exec_wrPpuReg, ppuRegWrite_eq]
  rfl

end Sys2Proof.Machine

/-! The clock step (41_clock_dma.md R140 to R148): what the slot phase is in each kind of step, what `CLK` answers
through it, and what an operation does to the tick. -/

namespace Sys2Proof.Machine

theorem slotPhase_noSlot (E : Env) {s : State} (ht : s.tick % 3 ≠ 0) : slotPhase E s = s := by
  simp [slotPhase, slotAt, ht]

theorem slotPhase_dma (E : Env) {s : State} (ht : s.tick % 3 = 0) (ha : s.dma.active = true) :
    slotPhase E s = dmaSubStep E s := by
  simp [slotPhase, slotAt, ht, ha]

theorem slotPhase_proc (E : Env) {s : State} (ht : s.tick % 3 = 0) (ha : s.dma.active = false) :
    slotPhase E s = runProc E (E.procStep s.proc) s := by
  simp [slotPhase, slotAt, ht, ha, procSlot]

/-- The state phases 1 and 2 of a clock step leave (R140), in which its slot runs. -/
def beforeSlot (E : Env) (s : State) : State := forwardNmi E (ppuDot E s)

@[simp] theorem beforeSlot_tick (E : Env) (s : State) : (beforeSlot E s).tick = s.tick := by
  simp [beforeSlot]

@[simp] theorem beforeSlot_dma (E : Env) (s : State) : (beforeSlot E s).dma = s.dma := by
  simp [beforeSlot]

/-- `CLK` answers what the slot leaves, with the tick it started from plus 1: no phase before the fourth writes it. -/
theorem exec_clk (s : State) :
    exec .clk s =
      .next { slotPhase Config.env (beforeSlot Config.env s) with tick := s.tick + 1, reply := .done } := by
  have ht : (slotPhase Config.env (beforeSlot Config.env s)).tick = s.tick := by simp
  rw [← ht]
  rfl

/-- Settles O31: both units as the call leaves them by the call's definition, and the slot by `ppuDot_kept`. -/
theorem dotTouchesOnlyPictureUnit : Obligations.DotTouchesOnlyPictureUnit := fun s =>
  ⟨rfl, ppuDot_kept Config.env s⟩

/-- Settles O30: the tick and the transfer the slot is chosen by are those the step started from. -/
theorem clockStepRunsFourPhases : Obligations.ClockStepRunsFourPhases := by
  intro s
  rw [exec_clk]
  by_cases ht : s.tick % 3 = 0
  · cases ha : s.dma.active with
    | true => rw [slotPhase_dma _ (by simpa using ht) (by simpa using ha)]; simp [ht, beforeSlot]
    | false => rw [slotPhase_proc _ (by simpa using ht) (by simpa using ha)]; simp [ht, beforeSlot, Config.env]
  · rw [slotPhase_noSlot _ (by simpa using ht)]; simp [ht, beforeSlot]

/-- Settles O33: the slot is the DMA engine's, and its sub-step the dummy one. -/
theorem dmaDummySlot : Obligations.DmaDummySlot := by
  intro s ht ha hd
  have hslot : slotPhase Config.env (beforeSlot Config.env s) = dmaDummy (beforeSlot Config.env s) := by
    rw [slotPhase_dma _ (by simpa using ht) (by simpa using ha), dmaSubStep_dummy _ (by simpa using hd)]
  rw [exec_clk, hslot, dmaDummy, beforeSlot_dma]
  rfl

theorem tick_of_answer {r : Byte × State} {t : State} (h : answer r = .next t) : t.tick = r.2.tick := by
  cases h; rfl

theorem tick_of_finish {s t : State} (h : finish s = .next t) : t.tick = s.tick := by
  cases h; rfl

@[simp] theorem insertCart_tick (h : Header) (s : State) : (insertCart h s).tick = s.tick := by
  unfold insertCart
  split <;> rfl

/-- No operation but `CLK` writes the tick: a read answers, a write finishes, from a state with the same tick. -/
theorem exec_keeps_tick {i : Instr} {s t : State} (hi : i ≠ .clk) (h : exec i s = .next t) : t.tick = s.tick := by
  cases i with
  | clk => exact absurd rfl hi
  | ins pb gb m v => cases h; exact insertCart_tick ..
  | rdRam | rdPpuReg | rdOpen4000 | rdOpen4010 | rdOamDma | rdOpen4015 | rdCtrl | rdOpen4018
  | rdCart4020 | rdCart4040 | rdCart4080 | rdCart4100 | rdCart4200 | rdCart4400 | rdCart4800 | rdCart5000
  | rdCart6000 | rdCart8000 | prd => exact (tick_of_answer h :)
  | wrRam | wrPpuReg | wrOpen4000 | wrOpen4010 | wrOamDma | wrOpen4015 | wrStrobe | wrOpen4017 | wrOpen4018
  | wrCart4020 | wrCart4040 | wrCart4080 | wrCart4100 | wrCart4200 | wrCart4400 | wrCart4800 | wrCart5000
  | wrCart6000 | wrCart8000 | pwr | ctl => exact (tick_of_finish h :)

/-- Settles O41: `clock_tick` for `CLK`, `exec_keeps_tick` for every other operation. -/
theorem tickCountsClockSteps : Obligations.TickCountsClockSteps := by
  intro i s t h
  by_cases hi : i = .clk
  · subst hi
    exact (tick_of_finish h).trans (clock_tick Config.env s)
  · rw [if_neg hi]
    exact exec_keeps_tick hi h

end Sys2Proof.Machine

/-! The host's operations (44_host_ops.md R211, R214): what the machine takes off the list of issued things, what a
step does with it, and what `CTL` leaves. -/

namespace Sys2Proof.Machine

theorem fetch_of_pending_nil {s : State} (h : s.pending = []) : fetch s = none := by
  rw [fetch, h]

theorem fetch_of_pending_word {s : State} {w : Nat} {p : Payload} {rest : List HostOp}
    (h : s.pending = .word w p :: rest) : fetch s = some (.word w p, (s.setPending rest).setPayload p) := by
  rw [fetch, h]

/-- With nothing issued the router holds its state (R216, R246). -/
theorem step_of_pending_nil {s : State} (h : s.pending = []) : step s = .next s := by
  rw [step, fetch_of_pending_nil h]

/-- An issued word that decodes is performed with its payload presented (R12, R85, R214). -/
theorem step_of_pending_word {s : State} {w : Nat} {p : Payload} {rest : List HostOp} {i : Instr}
    (h : s.pending = .word w p :: rest) (hi : decodeWord w = .ok i) :
    step s = exec i ((s.setPending rest).setPayload p) := by
  simp only [step, fetch_of_pending_word h, hi]

/-- A number of at most 28 bits decodes as the word of its bits (R80). -/
theorem decodeWord_of_lt {w : Nat} (hw : w < 2 ^ 28) : decodeWord w = decode (BitVec.ofNat 28 w) := if_pos hw

/-- Settles O7: `step_of_pending_word` for an issued word, which is no wider than one, and `step_of_pending_nil` for
none issued. -/
theorem stepRunsDecodedOperation : Obligations.StepRunsDecodedOperation :=
  ⟨fun _ _ _ _ _ hpending hw hi => step_of_pending_word hpending ((decodeWord_of_lt hw).trans hi),
    fun _ => step_of_pending_nil⟩

theorem exec_ctl (p : PortNo) (v : Byte) (s : State) :
    exec (.ctl p v) s = finish (s.setCtrl (s.ctrl.set p v)) := rfl

theorem PortBytes.set_zero (x : PortBytes) (v : Byte) : x.set 0 v = { x with port0 := v } := rfl

theorem PortBytes.set_one (x : PortBytes) (v : Byte) : x.set 1 v = { x with port1 := v } := rfl

/-- Settles O42: the live bytes left are those with the one of the port replaced, and only they are written. -/
theorem ctlSetsLiveByte : Obligations.CtlSetsLiveByte := by
  intro v s
  rw [exec_ctl, exec_ctl, PortBytes.set_zero, PortBytes.set_one]
  exact ⟨rfl, rfl⟩

end Sys2Proof.Machine

/-! Operation words (30_encoding.md R80 to R88): the fields a word is made of, the reserved words as the ones no row of
the opcode table fits, and the operation each other word decodes to. -/

namespace Sys2Proof

open Sys2Proof.Machine

/-! ### The fields of a word -/

/-- Neighbouring fields of a word, put together again. -/
theorem extract_append (x : OpWord) {hi lo : Nat} (m n : Nat) (h : hi = lo + n) :
    x.extractLsb' hi m ++ x.extractLsb' lo n = x.extractLsb' lo (m + n) :=
  BitVec.extractLsb'_append_extractLsb'_eq_extractLsb' h

/-- Bit 24, the write bit of formats CB and PB (R81, R82). -/
def fieldW (x : OpWord) : BitVec 1 := x.extractLsb' 24 1

theorem wordBus_fields (x : OpWord) : wordBus (fieldK x) (fieldW x) (fieldA x) (fieldD x) = x := by
  unfold wordBus fieldK fieldW fieldA fieldD
  rw [extract_append x 3 1 rfl, extract_append x 4 16 rfl, extract_append x 20 8 rfl, BitVec.extractLsb'_eq_self]

theorem wordCtl_fields {x : OpWord} (hk : fieldK x = 3) (hz : x.extractLsb' 9 16 = 0) :
    wordCtl (fieldP x) (fieldD x) = x := by
  have hx : wordCtl (fieldP x) (fieldD x) =
      ((fieldK x ++ x.extractLsb' 9 16) ++ fieldP x) ++ fieldD x := by rw [hk, hz]; rfl
  rw [hx]
  unfold fieldK fieldP fieldD
  rw [extract_append x 3 16 rfl, extract_append x 19 1 rfl, extract_append x 20 8 rfl,
    BitVec.extractLsb'_eq_self]

theorem ofBool_fieldV (x : OpWord) : BitVec.ofBool (fieldV x) = x.extractLsb' 0 1 := by
  ext i hi
  obtain rfl : i = 0 := by omega
  simp [fieldV]

theorem wordIns_fields {x : OpWord} (hk : fieldK x = 4) :
    wordIns (fieldPb x) (fieldGb x) (fieldM x) (fieldV x) = x := by
  have hx : wordIns (fieldPb x) (fieldGb x) (fieldM x) (fieldV x) =
      (((fieldK x ++ fieldPb x) ++ fieldGb x) ++ fieldM x) ++ x.extractLsb' 0 1 := by
    rw [hk, ← ofBool_fieldV]; rfl
  rw [hx]
  unfold fieldK fieldPb fieldGb fieldM
  rw [extract_append x 3 8 rfl, extract_append x 11 8 rfl, extract_append x 19 8 rfl, extract_append x 27 1 rfl,
    BitVec.extractLsb'_eq_self]

theorem wordClk_fields {x : OpWord} (hk : fieldK x = 2) (hz : x.extractLsb' 0 25 = 0) : x = 0x4000000 := by
  unfold fieldK at hk
  calc x = x.extractLsb' 25 3 ++ x.extractLsb' 0 25 := by
        rw [extract_append x 3 25 rfl, BitVec.extractLsb'_eq_self]
    _ = 0x4000000 := by rw [hk, hz]; decide

/-- Only the words of classes 0 and 1 are below `2 ^ 26` (R80). -/
theorem toNat_lt_iff_class (x : OpWord) : x.toNat < 2 ^ 26 ↔ (fieldK x).toNat < 2 := by
  have hx := x.isLt
  have hk : (fieldK x).toNat = x.toNat / 2 ^ 25 % 8 := by
    simp [fieldK, BitVec.extractLsb'_toNat, Nat.shiftRight_eq_div_pow]
  omega

/-- The fields of an assembled bus word, all at once: the assembly loses nothing. -/
theorem wordBus_inj {k k' : BitVec 3} {w w' : BitVec 1} {a a' : Addr} {d d' : Byte}
    (h : wordBus k w a d = wordBus k' w' a' d') : k = k' ∧ w = w' ∧ a = a' ∧ d = d' := by
  obtain ⟨h, hd⟩ := append_parts h
  obtain ⟨h, ha⟩ := append_parts h
  obtain ⟨hk, hw⟩ := append_parts h
  exact ⟨hk, hw, ha, hd⟩

@[simp] theorem fieldK_wordBus (k : BitVec 3) (w : BitVec 1) (a : Addr) (d : Byte) : fieldK (wordBus k w a d) = k := by
  obtain ⟨hk, -, -, -⟩ := wordBus_inj (wordBus_fields (wordBus k w a d))
  exact hk

@[simp] theorem fieldW_wordBus (k : BitVec 3) (w : BitVec 1) (a : Addr) (d : Byte) : fieldW (wordBus k w a d) = w := by
  obtain ⟨-, hw, -, -⟩ := wordBus_inj (wordBus_fields (wordBus k w a d))
  exact hw

theorem getLsbD_fieldW (x : OpWord) : x.getLsbD 24 = decide (fieldW x = 1) := by
  have hw : x.getLsbD 24 = (fieldW x).getLsbD 0 := by simp [fieldW]
  rw [hw]
  exact (show ∀ w : BitVec 1, w.getLsbD 0 = decide (w = 1) by decide) _

/-- Masking off bits 7:0 of a bus word clears its data (R81). -/
theorem wordBus_and_clearData (k : BitVec 3) (w : BitVec 1) (a : Addr) (d : Byte) :
    wordBus k w a d &&& 0xFFFFF00 = wordBus k w a 0 := by
  have hm : (0xFFFFF00 : OpWord) =
      ((BitVec.allOnes 3 ++ BitVec.allOnes 1) ++ BitVec.allOnes 16) ++ 0#8 := by decide
  unfold wordBus
  rw [hm, BitVec.and_append, BitVec.and_append, BitVec.and_append]
  simp only [BitVec.and_allOnes, BitVec.and_zero]
  rfl

/-- The port a bus word names is bit 0 of its address (R105). -/
theorem fieldP_wordBus (k : BitVec 3) (w : BitVec 1) (a : Addr) (d : Byte) :
    fieldP (wordBus k w a d) = BitVec.ofNat 1 (a.toNat % 2) := by
  have hp : fieldP (wordBus k w a d) = (fieldA (wordBus k w a d)).extractLsb' 0 1 := by
    ext i hi
    obtain rfl : i = 0 := by omega
    simp [fieldP, fieldA]
  rw [hp, fieldA_wordBus]
  apply BitVec.eq_of_toNat_eq
  simp [BitVec.extractLsb'_toNat]

/-! ### Reserved words (R88) -/

/-- Where a row's mask is all ones, a word that fits has the row's bits. -/
theorem Row.extract_of_fits {r : Row} {x : OpWord} (hf : r.fits x = true) (start len : Nat)
    (hm : r.mask.extractLsb' start len = BitVec.allOnes len) :
    x.extractLsb' start len = r.pat.extractLsb' start len := by
  rw [← beq_iff_eq.1 hf, BitVec.extractLsb'_and, hm, BitVec.and_allOnes]

/-- Every row of the table tests the class, and is a row of no reserved one; the row of class 2 tests every other bit
to be clear, and the row of class 3 bits 24:9 (R87). -/
theorem opcodeTable_class : ∀ r ∈ opcodeTable,
    r.mask.extractLsb' 25 3 = BitVec.allOnes 3 ∧ (r.pat.extractLsb' 25 3).toNat ≤ 4 ∧
    (r.pat.extractLsb' 25 3 = 2 → r.mask.extractLsb' 0 25 = BitVec.allOnes 25 ∧ r.pat.extractLsb' 0 25 = 0) ∧
    (r.pat.extractLsb' 25 3 = 3 → r.mask.extractLsb' 9 16 = BitVec.allOnes 16 ∧ r.pat.extractLsb' 9 16 = 0) := by
  decide

/-- A word some row fits is not reserved (R88). -/
theorem not_reserved_of_fits {r : Row} (hr : r ∈ opcodeTable) {x : OpWord} (hf : r.fits x = true) :
    ¬ ReservedWord x := by
  obtain ⟨hmask, hclass, hclk, hctl⟩ := opcodeTable_class r hr
  have hk := r.extract_of_fits hf 25 3 hmask
  rw [← hk] at hclass hclk hctl
  rintro (h | h | h | ⟨h, hne⟩ | ⟨h, hne⟩)
  · rw [h] at hclass; exact absurd hclass (by decide)
  · rw [h] at hclass; exact absurd hclass (by decide)
  · rw [h] at hclass; exact absurd hclass (by decide)
  · obtain ⟨hm, hp⟩ := hclk h
    exact hne ((r.extract_of_fits hf 0 25 hm).trans hp)
  · obtain ⟨hm, hp⟩ := hctl h
    exact hne ((r.extract_of_fits hf 9 16 hm).trans hp)

/-- A word that is not reserved is laid out as one of the formats (R81 to R85). -/
theorem word_formats {x : OpWord} (h : ¬ ReservedWord x) :
    fieldK x = 0 ∨ fieldK x = 1 ∨ x = 0x4000000 ∨
    (fieldK x = 3 ∧ wordCtl (fieldP x) (fieldD x) = x) ∨ fieldK x = 4 := by
  have hk : ∀ k : BitVec 3, k = 0 ∨ k = 1 ∨ k = 2 ∨ k = 3 ∨ k = 4 ∨ k = 5 ∨ k = 6 ∨ k = 7 := by decide
  simp only [ReservedWord, not_or, not_and, not_not] at h
  obtain ⟨h5, h6, h7, hclk, hctl⟩ := h
  rcases hk (fieldK x) with h | h | h | h | h | h | h | h
  · exact .inl h
  · exact .inr (.inl h)
  · exact .inr (.inr (.inl (wordClk_fields h (hclk h))))
  · exact .inr (.inr (.inr (.inl ⟨h, wordCtl_fields h (hctl h)⟩)))
  · exact .inr (.inr (.inr (.inr h)))
  · exact absurd h h5
  · exact absurd h h6
  · exact absurd h h7

/-! ### The operation a word decodes to -/

/-- The word of every well-formed operation fits a row that builds the operation (R87, R91): one lemma per operation. -/
theorem encode_fits : ∀ i : Instr, Laws.EncodeFits.Statement i
  | .rdRam a => Laws.EncodeFits.rdRam a
  | .rdPpuReg a => Laws.EncodeFits.rdPpuReg a
  | .rdOpen4000 a => Laws.EncodeFits.rdOpen4000 a
  | .rdOpen4010 a => Laws.EncodeFits.rdOpen4010 a
  | .rdOamDma => Laws.EncodeFits.rdOamDma
  | .rdOpen4015 => Laws.EncodeFits.rdOpen4015
  | .rdCtrl p => Laws.EncodeFits.rdCtrl p
  | .rdOpen4018 a => Laws.EncodeFits.rdOpen4018 a
  | .rdCart4020 a => Laws.EncodeFits.rdCart4020 a
  | .rdCart4040 a => Laws.EncodeFits.rdCart4040 a
  | .rdCart4080 a => Laws.EncodeFits.rdCart4080 a
  | .rdCart4100 a => Laws.EncodeFits.rdCart4100 a
  | .rdCart4200 a => Laws.EncodeFits.rdCart4200 a
  | .rdCart4400 a => Laws.EncodeFits.rdCart4400 a
  | .rdCart4800 a => Laws.EncodeFits.rdCart4800 a
  | .rdCart5000 a => Laws.EncodeFits.rdCart5000 a
  | .rdCart6000 a => Laws.EncodeFits.rdCart6000 a
  | .rdCart8000 a => Laws.EncodeFits.rdCart8000 a
  | .wrRam a v => Laws.EncodeFits.wrRam a v
  | .wrPpuReg a v => Laws.EncodeFits.wrPpuReg a v
  | .wrOpen4000 a v => Laws.EncodeFits.wrOpen4000 a v
  | .wrOpen4010 a v => Laws.EncodeFits.wrOpen4010 a v
  | .wrOamDma v => Laws.EncodeFits.wrOamDma v
  | .wrOpen4015 v => Laws.EncodeFits.wrOpen4015 v
  | .wrStrobe v => Laws.EncodeFits.wrStrobe v
  | .wrOpen4017 v => Laws.EncodeFits.wrOpen4017 v
  | .wrOpen4018 a v => Laws.EncodeFits.wrOpen4018 a v
  | .wrCart4020 a v => Laws.EncodeFits.wrCart4020 a v
  | .wrCart4040 a v => Laws.EncodeFits.wrCart4040 a v
  | .wrCart4080 a v => Laws.EncodeFits.wrCart4080 a v
  | .wrCart4100 a v => Laws.EncodeFits.wrCart4100 a v
  | .wrCart4200 a v => Laws.EncodeFits.wrCart4200 a v
  | .wrCart4400 a v => Laws.EncodeFits.wrCart4400 a v
  | .wrCart4800 a v => Laws.EncodeFits.wrCart4800 a v
  | .wrCart5000 a v => Laws.EncodeFits.wrCart5000 a v
  | .wrCart6000 a v => Laws.EncodeFits.wrCart6000 a v
  | .wrCart8000 a v => Laws.EncodeFits.wrCart8000 a v
  | .prd a => Laws.EncodeFits.prd a
  | .pwr a v => Laws.EncodeFits.pwr a v
  | .clk => Laws.EncodeFits.clk
  | .ctl p v => Laws.EncodeFits.ctl p v
  | .ins pb gb m v => Laws.EncodeFits.ins pb gb m v

theorem decode_encode {i : Instr} (h : i.wf = true) : decode (encode i) = .ok i := by
  obtain ⟨r, hr, hfits, hbuild⟩ := encode_fits i h
  rw [decode_of_fits hr hfits, hbuild]

theorem inBlock_of_le {first last : Nat} {a : Addr} (h1 : first ≤ a.toNat) (h2 : a.toNat ≤ last) :
    inBlock first last a = true := by
  simp [inBlock, h1, h2]

/-- A word the `n`-th row of the table fits decodes to what that row builds. -/
theorem decode_of_row (n : Nat) (hn : n < opcodeTable.length) {x : OpWord} {i : Instr}
    (hf : opcodeTable[n].fits x = true) (hb : opcodeTable[n].build x = i) : decode x = .ok i :=
  hb ▸ decode_of_fits (List.getElem_mem hn) hf

theorem addr_eq_of_le {a : Addr} {n : Nat} (hn : n < 2 ^ 16) (h1 : n ≤ a.toNat) (h2 : a.toNat ≤ n) :
    BitVec.ofNat 16 n = a := by
  apply BitVec.eq_of_toNat_eq
  rw [BitVec.toNat_ofNat, Nat.mod_eq_of_lt hn]
  omega

/-- The address of `RD.CTRL` is its block with the port in bit 0 (R105). -/
theorem ctrlAddr_eq {a : Addr} (h1 : 0x4016 ≤ a.toNat) (h2 : a.toNat ≤ 0x4017) :
    (0x200B#15 : BitVec 15) ++ BitVec.ofNat 1 (a.toNat % 2) = a := by
  rcases Nat.le_or_eq_of_le_succ h2 with h | h
  · rw [← addr_eq_of_le (by decide) h1 h]; rfl
  · rw [← addr_eq_of_le (by decide) h.ge h.le]; rfl

/-- What the row of a range's read gives: the operation is well-formed, its word is the bus word with zero data bits,
and the word decodes to it whatever the data bits are (R81). -/
def ReadRow (a : Addr) (i : Instr) : Prop :=
  i.wf = true ∧ encode i = wordBus 0 0 a 0 ∧ ∀ d, decode (wordBus 0 0 a d) = .ok i

/-- The read `f a` of a block of `2 ^ k` addresses, which the `n`-th row of the table tests. -/
theorem readRow_of_block {f : Addr → Instr} {a base : Addr} (n k : Nat) (hn : n < opcodeTable.length)
    (hrow : opcodeTable[n] = busRow 0 base (BitVec.allOnes 16 <<< k) (fun x => f (fieldA x)))
    (hbase : base.toNat % 2 ^ k = 0) (hwf : (f a).wf = inBlock base.toNat (base.toNat + 2 ^ k - 1) a)
    (hencode : encode (f a) = wordBus 0 0 a 0)
    (hin : inBlock base.toNat (base.toNat + 2 ^ k - 1) a = true) : ReadRow a (f a) := by
  refine ⟨hwf.trans hin, hencode, fun d => decode_of_row n hn ?_ ?_⟩
  · rw [hrow]; exact busRow_fits_block k rfl hbase hin
  · rw [hrow]; exact congrArg f (fieldA_wordBus ..)

theorem readRow_readOp (a : Addr) : ReadRow a (readOp a) := by
  have hmax : a.toNat ≤ 0xFFFF := Nat.le_of_lt_succ a.isLt
  refine readOp_cases (P := ReadRow a) a ?_ ?_ ?_ ?_ ?_ ?_ ?_ ?_ ?_ ?_ ?_ ?_ ?_ ?_ ?_ ?_ ?_ ?_
  · exact fun h => readRow_of_block 0 13 (by decide) rfl rfl rfl rfl (inBlock_of_le (Nat.zero_le a.toNat) h)
  · exact fun h1 h2 => readRow_of_block 1 13 (by decide) rfl rfl rfl rfl (inBlock_of_le h1 h2)
  · exact fun h1 h2 => readRow_of_block 2 4 (by decide) rfl rfl rfl rfl (inBlock_of_le h1 h2)
  · exact fun h1 h2 => readRow_of_block 3 2 (by decide) rfl rfl rfl rfl (inBlock_of_le h1 h2)
  · exact fun h1 h2 => ⟨rfl, congrArg (wordBus 0 0 · 0) (addr_eq_of_le (by decide) h1 h2), fun _ =>
      decode_of_row 4 (by decide) (busRow_fits_block 0 rfl rfl (inBlock_of_le h1 h2)) rfl⟩
  · exact fun h1 h2 => ⟨rfl, congrArg (wordBus 0 0 · 0) (addr_eq_of_le (by decide) h1 h2), fun _ =>
      decode_of_row 5 (by decide) (busRow_fits_block 0 rfl rfl (inBlock_of_le h1 h2)) rfl⟩
  · exact fun h1 h2 => ⟨rfl, congrArg (wordBus 0 0 · 0) (ctrlAddr_eq h1 h2), fun _ =>
      decode_of_row 6 (by decide) (busRow_fits_block 1 rfl rfl (inBlock_of_le h1 h2))
        (congrArg Instr.rdCtrl (fieldP_wordBus ..))⟩
  · exact fun h1 h2 => readRow_of_block 7 3 (by decide) rfl rfl rfl rfl (inBlock_of_le h1 h2)
  · exact fun h1 h2 => readRow_of_block 8 5 (by decide) rfl rfl rfl rfl (inBlock_of_le h1 h2)
  · exact fun h1 h2 => readRow_of_block 9 6 (by decide) rfl rfl rfl rfl (inBlock_of_le h1 h2)
  · exact fun h1 h2 => readRow_of_block 10 7 (by decide) rfl rfl rfl rfl (inBlock_of_le h1 h2)
  · exact fun h1 h2 => readRow_of_block 11 8 (by decide) rfl rfl rfl rfl (inBlock_of_le h1 h2)
  · exact fun h1 h2 => readRow_of_block 12 9 (by decide) rfl rfl rfl rfl (inBlock_of_le h1 h2)
  · exact fun h1 h2 => readRow_of_block 13 10 (by decide) rfl rfl rfl rfl (inBlock_of_le h1 h2)
  · exact fun h1 h2 => readRow_of_block 14 11 (by decide) rfl rfl rfl rfl (inBlock_of_le h1 h2)
  · exact fun h1 h2 => readRow_of_block 15 12 (by decide) rfl rfl rfl rfl (inBlock_of_le h1 h2)
  · exact fun h1 h2 => readRow_of_block 16 13 (by decide) rfl rfl rfl rfl (inBlock_of_le h1 h2)
  · exact fun h => readRow_of_block 17 15 (by decide) rfl rfl rfl rfl (inBlock_of_le h hmax)

/-- What the word of a range's write gives: the operation is well-formed, and its word is the bus word. -/
def WriteRow (a : Addr) (d : Byte) (i : Instr) : Prop := i.wf = true ∧ encode i = wordBus 0 1 a d

theorem writeRow_writeOp (a : Addr) (d : Byte) : WriteRow a d (writeOp a d) := by
  have hmax : a.toNat ≤ 0xFFFF := Nat.le_of_lt_succ a.isLt
  have hone {n : Nat} (hn : n < 2 ^ 16) (h1 : n ≤ a.toNat) (h2 : a.toNat ≤ n) :
      wordBus 0 1 (BitVec.ofNat 16 n) d = wordBus 0 1 a d := by rw [addr_eq_of_le hn h1 h2]
  refine writeOp_cases (P := WriteRow a d) a d ?_ ?_ ?_ ?_ ?_ ?_ ?_ ?_ ?_ ?_ ?_ ?_ ?_ ?_ ?_ ?_ ?_ ?_ ?_
  · exact fun h => ⟨inBlock_of_le (Nat.zero_le a.toNat) h, rfl⟩
  · exact fun h1 h2 => ⟨inBlock_of_le h1 h2, rfl⟩
  · exact fun h1 h2 => ⟨inBlock_of_le h1 h2, rfl⟩
  · exact fun h1 h2 => ⟨inBlock_of_le h1 h2, rfl⟩
  · exact fun h1 h2 => ⟨rfl, hone (by decide) h1 h2⟩
  · exact fun h1 h2 => ⟨rfl, hone (by decide) h1 h2⟩
  · exact fun h1 h2 => ⟨rfl, hone (by decide) h1 h2⟩
  · exact fun h1 h2 => ⟨rfl, hone (by decide) h1 h2⟩
  · exact fun h1 h2 => ⟨inBlock_of_le h1 h2, rfl⟩
  · exact fun h1 h2 => ⟨inBlock_of_le h1 h2, rfl⟩
  · exact fun h1 h2 => ⟨inBlock_of_le h1 h2, rfl⟩
  · exact fun h1 h2 => ⟨inBlock_of_le h1 h2, rfl⟩
  · exact fun h1 h2 => ⟨inBlock_of_le h1 h2, rfl⟩
  · exact fun h1 h2 => ⟨inBlock_of_le h1 h2, rfl⟩
  · exact fun h1 h2 => ⟨inBlock_of_le h1 h2, rfl⟩
  · exact fun h1 h2 => ⟨inBlock_of_le h1 h2, rfl⟩
  · exact fun h1 h2 => ⟨inBlock_of_le h1 h2, rfl⟩
  · exact fun h1 h2 => ⟨inBlock_of_le h1 h2, rfl⟩
  · exact fun h => ⟨inBlock_of_le h hmax, rfl⟩

theorem decode_busRead (a : Addr) (d : Byte) : decode (wordBus 0 0 a d) = .ok (readOp a) := by
  obtain ⟨-, -, hdecode⟩ := readRow_readOp a
  exact hdecode d

theorem decode_busWrite (a : Addr) (d : Byte) : decode (wordBus 0 1 a d) = .ok (writeOp a d) := by
  obtain ⟨hwf, hencode⟩ := writeRow_writeOp a d
  rw [← hencode]
  exact decode_encode hwf

/-- The data bits of a port read select nothing: the row's mask does not test them (R82). -/
theorem decode_portRead (a : Addr) (d : Byte) : decode (wordBus 1 0 a d) = .ok (.prd a) :=
  decode_of_row 37 (by decide) (beq_iff_eq.2 (port_fits 0 a d)) (congrArg Instr.prd (fieldA_wordBus ..))

theorem decode_portWrite (a : Addr) (d : Byte) : decode (wordBus 1 1 a d) = .ok (.pwr a d) :=
  decode_encode (i := .pwr a d) rfl

theorem decode_wordClk : decode 0x4000000 = .ok .clk := decode_encode (i := .clk) rfl

theorem decode_wordCtl (p : PortNo) (v : Byte) : decode (wordCtl p v) = .ok (.ctl p v) :=
  decode_encode (i := .ctl p v) rfl

theorem decode_wordIns (pb gb m : Byte) (v : Bool) : decode (wordIns pb gb m v) = .ok (.ins pb gb m v) :=
  decode_encode (i := .ins pb gb m v) rfl

/-- A class 000 or 001 word is the bus word of a read or of a write. -/
theorem wordBus_of_class {x : OpWord} {k : BitVec 3} (hk : fieldK x = k) :
    (∃ a d, x = wordBus k 0 a d) ∨ ∃ a d, x = wordBus k 1 a d := by
  have hx := wordBus_fields x
  rw [hk] at hx
  rcases (show ∀ w : BitVec 1, w = 0 ∨ w = 1 by decide) (fieldW x) with hw | hw
  · exact .inl ⟨fieldA x, fieldD x, by rw [hw] at hx; exact hx.symm⟩
  · exact .inr ⟨fieldA x, fieldD x, by rw [hw] at hx; exact hx.symm⟩

/-- What a word decodes to goes back to it, but for the data bits of a read (R81, R82). -/
def GoesBack (x : OpWord) (i : Instr) : Prop :=
  decode x = .ok i ∧ i.wf = true ∧
    encode i = if x.toNat < 2 ^ 26 ∧ x.getLsbD 24 = false then x &&& 0xFFFFF00 else x

/-- A read: the class is 000 or 001 and bit 24 is clear. -/
theorem goesBack_read {k : BitVec 3} {a : Addr} {d : Byte} {i : Instr} (hk : k.toNat < 2)
    (hd : decode (wordBus k 0 a d) = .ok i) (hwf : i.wf = true) (he : encode i = wordBus k 0 a 0) :
    GoesBack (wordBus k 0 a d) i := by
  have h26 : (wordBus k 0 a d).toNat < 2 ^ 26 := by rw [toNat_lt_iff_class, fieldK_wordBus]; exact hk
  have h24 : (wordBus k 0 a d).getLsbD 24 = false := by rw [getLsbD_fieldW, fieldW_wordBus]; rfl
  exact ⟨hd, hwf, by rw [if_pos ⟨h26, h24⟩, wordBus_and_clearData, he]⟩

/-- A bus or port write: bit 24 is set. -/
theorem goesBack_write {k : BitVec 3} {a : Addr} {d : Byte} {i : Instr}
    (hd : decode (wordBus k 1 a d) = .ok i) (hwf : i.wf = true) (he : encode i = wordBus k 1 a d) :
    GoesBack (wordBus k 1 a d) i := by
  have h24 : ¬ (wordBus k 1 a d).getLsbD 24 = false := by rw [getLsbD_fieldW, fieldW_wordBus]; decide
  exact ⟨hd, hwf, by rw [if_neg (fun h => h24 h.2), he]⟩

/-- The other formats: the class is 010 or above. -/
theorem goesBack_other {x : OpWord} {i : Instr} (hk : 2 ≤ (fieldK x).toNat) (hwf : i.wf = true) (he : encode i = x) :
    GoesBack x i := by
  have h26 : ¬ x.toNat < 2 ^ 26 := by rw [toNat_lt_iff_class]; omega
  exact ⟨he ▸ decode_encode hwf, hwf, by rw [if_neg (fun h => h26 h.1), he]⟩

/-- Every word that is not reserved decodes, to an operation that goes back to it (R80, R88). -/
theorem goesBack_of_not_reserved {x : OpWord} (h : ¬ ReservedWord x) : ∃ i, GoesBack x i := by
  rcases word_formats h with hk | hk | rfl | ⟨hk, hx⟩ | hk
  · rcases wordBus_of_class hk with ⟨a, d, rfl⟩ | ⟨a, d, rfl⟩
    · obtain ⟨hwf, he, hd⟩ := readRow_readOp a
      exact ⟨readOp a, goesBack_read (by decide) (hd d) hwf he⟩
    · obtain ⟨hwf, he⟩ := writeRow_writeOp a d
      exact ⟨writeOp a d, goesBack_write (decode_busWrite a d) hwf he⟩
  · rcases wordBus_of_class hk with ⟨a, d, rfl⟩ | ⟨a, d, rfl⟩
    · exact ⟨.prd a, goesBack_read (by decide) (decode_portRead a d) rfl rfl⟩
    · exact ⟨.pwr a d, goesBack_write (decode_portWrite a d) rfl rfl⟩
  · exact ⟨.clk, goesBack_other (by decide) rfl rfl⟩
  · exact ⟨.ctl (fieldP x) (fieldD x), goesBack_other (by rw [hk]; decide) rfl hx⟩
  · exact ⟨.ins (fieldPb x) (fieldGb x) (fieldM x) (fieldV x),
      goesBack_other (by rw [hk]; decide) rfl (wordIns_fields hk)⟩

/-- The decoder answers an operation for the words that are not reserved, and for no other (R88). -/
theorem exists_decode_ok_iff (x : OpWord) : (∃ i, decode x = .ok i) ↔ ¬ ReservedWord x := by
  constructor
  · rintro ⟨i, hi⟩
    obtain ⟨r, hr, hfits, -⟩ := decode_ok hi
    exact not_reserved_of_fits hr hfits
  · intro h
    obtain ⟨i, hi, -⟩ := goesBack_of_not_reserved h
    exact ⟨i, hi⟩

theorem exists_decode_error_iff (x : OpWord) : (∃ e, decode x = .error e) ↔ ReservedWord x := by
  rw [← not_iff_not, ← exists_decode_ok_iff]
  cases decode x <;> simp

/-- Of rows no two of which overlap, a word that fits one fits that one only. -/
theorem filter_fits_length {rows : List Row} (hp : rows.Pairwise Row.disjoint) {r : Row} (hr : r ∈ rows)
    {x : OpWord} (hf : r.fits x = true) : (rows.filter (fun q => q.fits x)).length = 1 := by
  induction rows with
  | nil => cases hr
  | cons q qs ih =>
    obtain ⟨hq, hqs⟩ := List.pairwise_cons.1 hp
    rcases List.mem_cons.1 hr with rfl | hr
    · have hnone : qs.filter (fun q => q.fits x) = [] :=
        List.filter_eq_nil_iff.2 fun p hmem => by simp [Row.not_both (hq p hmem) hf]
      rw [List.filter_cons_of_pos (p := fun q : Row => q.fits x) hf, hnone]
      rfl
    · have hnot : ¬ q.fits x = true := fun h => by simp [Row.not_both (hq r hr) h] at hf
      rw [List.filter_cons_of_neg (p := fun q : Row => q.fits x) hnot]
      exact ih hqs hr

/-- Settles O1: the word of every well-formed operation fits a row that builds the operation back (`encode_fits`), and
the row a word fits is the one the decoder selects. -/
theorem decodeOfEncode : Obligations.DecodeOfEncode := fun _ => decode_encode

/-- Settles O2: a word that decodes is not reserved, so it is laid out as one of the formats, each of which goes back
to it. -/
theorem encodeOfDecode : Obligations.EncodeOfDecode := by
  intro x i hi
  obtain ⟨j, hj, hwf, he⟩ := goesBack_of_not_reserved ((exists_decode_ok_iff x).1 ⟨i, hi⟩)
  obtain rfl : i = j := Except.ok.inj (hi.symm.trans hj)
  exact ⟨hwf, he⟩

/-- Settles O3: range by range for the bus words, by the encoder's own words for the others. -/
theorem busWordsDecodeByRange : Obligations.BusWordsDecodeByRange :=
  ⟨fun a d => ⟨decode_busRead a d, decode_busWrite a d⟩, fun a d => ⟨decode_portRead a d, decode_portWrite a d⟩,
    decode_wordClk, decode_wordCtl, decode_wordIns⟩

/-- Settles O4: a word that is not reserved decodes, so a row fits it, and rows do not overlap; a row fits no reserved
word. -/
theorem everyWordSelectsOneRow : Obligations.EveryWordSelectsOneRow := by
  intro x
  constructor
  · intro h
    obtain ⟨i, hi⟩ := (exists_decode_ok_iff x).2 h
    obtain ⟨r, hr, hfits, -⟩ := decode_ok hi
    exact filter_fits_length opcodeTable_disjoint hr hfits
  · intro h
    rw [List.length_eq_zero_iff, List.filter_eq_nil_iff]
    exact fun r hr hfits => not_reserved_of_fits hr hfits h

/-- An issued word the decoder rejects is refused with its reason (R88, R233). -/
theorem step_of_rejected_word {s : State} {w : Nat} {p : Payload} {rest : List HostOp} {e : DecodeReject}
    (h : s.pending = .word w p :: rest) (he : decodeWord w = .error e) :
    step s = .refused (.addrContract e) := by
  simp only [step, fetch_of_pending_word h, he]

theorem decodeWord_toNat (x : OpWord) : decodeWord x.toNat = decode x := by
  rw [decodeWord_of_lt x.isLt, BitVec.ofNat_toNat, BitVec.setWidth_eq]

/-- Settles O5: the decoder rejects the word, and the step refuses with its reason. -/
theorem reservedWordsAreRefused : Obligations.ReservedWordsAreRefused := by
  intro x s p rest hx hpending
  obtain ⟨e, he⟩ := (exists_decode_error_iff x).2 hx
  exact ⟨e, he, step_of_rejected_word hpending ((decodeWord_toNat x).trans he)⟩

/-- Settles O6: the decoder run on each word. -/
theorem listedWordsDecode : Obligations.ListedWordsDecode :=
  ⟨by decide, by decide, by decide, by decide, by decide, by decide, by decide⟩

end Sys2Proof

/-! Byte arrays (10_state.md): canonical arrays that read alike are equal, and the image of a byte sequence holds it. -/

namespace Sys2Proof.Machine

theorem Memory.rising_cons {lo : Nat} {c : Host.Cell} {m : Memory} :
    Memory.rising lo (c :: m) = true ↔ lo ≤ c.1 ∧ Memory.rising (c.1 + 1) m = true := by
  simp [Memory.rising]

theorem Memory.proper_cons {init : Nat → Byte} {size : Nat} {c : Host.Cell} {m : Memory} :
    Memory.proper init size (c :: m) = true ↔
      (c.2 ≠ init c.1 ∧ c.1 < size) ∧ Memory.proper init size m = true := by
  simp [Memory.proper]

@[simp] theorem Memory.read_cons_same (init : Nat → Byte) (c : Host.Cell) (m : Memory) :
    Memory.read init (c :: m) c.1 = c.2 := if_pos rfl

theorem Memory.read_cons_other {init : Nat → Byte} {c : Host.Cell} {m : Memory} {j : Nat} (h : c.1 ≠ j) :
    Memory.read init (c :: m) j = Memory.read init m j := if_neg h

/-- A listed byte differs from what its index holds unlisted, so an array that reads alike lists an index as low. -/
theorem Memory.le_of_read_eq {init : Nat → Byte} {lo : Nat} {c : Host.Cell} {m n : Memory} (hc : c.2 ≠ init c.1)
    (hn : Memory.rising lo n = true) (hread : Memory.read init (c :: m) c.1 = Memory.read init n c.1) : lo ≤ c.1 := by
  by_contra hlt
  rw [Memory.read_cons_same, Memory.read_of_rising_lt hn (by omega)] at hread
  exact hc hread

/-- Where the heads are alike, the tails read alike: below and at the head's index neither lists anything. -/
theorem Memory.read_tail_eq {init : Nat → Byte} {c : Host.Cell} {m n : Memory}
    (hm : Memory.rising (c.1 + 1) m = true) (hn : Memory.rising (c.1 + 1) n = true)
    (hread : ∀ j, Memory.read init (c :: m) j = Memory.read init (c :: n) j) (j : Nat) :
    Memory.read init m j = Memory.read init n j := by
  by_cases hj : j < c.1 + 1
  · rw [Memory.read_of_rising_lt hm hj, Memory.read_of_rising_lt hn hj]
  · have hne : c.1 ≠ j := by omega
    have h := hread j
    rwa [Memory.read_cons_other hne, Memory.read_cons_other hne] at h

theorem Memory.eq_of_read_eq {init : Nat → Byte} {size lo : Nat} {m n : Memory}
    (hm : Memory.rising lo m = true) (hn : Memory.rising lo n = true)
    (hpm : Memory.proper init size m = true) (hpn : Memory.proper init size n = true)
    (hread : ∀ j, Memory.read init m j = Memory.read init n j) : m = n := by
  induction m generalizing lo n with
  | nil =>
    cases n with
    | nil => rfl
    | cons d n =>
      obtain ⟨⟨hd, -⟩, -⟩ := Memory.proper_cons.1 hpn
      have := Memory.le_of_read_eq (lo := d.1 + 1) hd rfl (hread d.1).symm
      omega
  | cons c m ih =>
    obtain ⟨⟨hc, -⟩, hpm⟩ := Memory.proper_cons.1 hpm
    obtain ⟨-, hm⟩ := Memory.rising_cons.1 hm
    cases n with
    | nil =>
      have := Memory.le_of_read_eq (lo := c.1 + 1) hc rfl (hread c.1)
      omega
    | cons d n =>
      obtain ⟨⟨hd, -⟩, hpn'⟩ := Memory.proper_cons.1 hpn
      obtain ⟨-, hn⟩ := Memory.rising_cons.1 hn
      have hdc := Memory.le_of_read_eq hc (Memory.rising_cons.2 ⟨le_refl d.1, hn⟩) (hread c.1)
      have hcd := Memory.le_of_read_eq hd (Memory.rising_cons.2 ⟨le_refl c.1, hm⟩) (hread d.1).symm
      have hidx : c.1 = d.1 := by omega
      have hbyte : c.2 = d.2 := by
        have h := hread c.1
        rwa [Memory.read_cons_same, hidx, Memory.read_cons_same] at h
      obtain rfl : c = d := Prod.ext hidx hbyte
      rw [ih hm hn hpm hpn' (Memory.read_tail_eq hm hn hread)]

theorem rising_imageCells (off : Nat) (bs : List Byte) : Memory.rising off (imageCells off bs) = true := by
  induction bs generalizing off with
  | nil => rfl
  | cons b bs ih =>
    simp only [imageCells]
    split
    · exact Memory.rising_mono (Nat.le_succ off) (ih (off + 1))
    · exact Memory.rising_cons.2 ⟨le_refl off, ih (off + 1)⟩

/-- The first byte of a sequence stands at its offset, listed or not, and the rest of the sequence behind it. -/
theorem read_imageCells_cons (off : Nat) (b : Byte) (bs : List Byte) (j : Nat) :
    Memory.read imageInit (imageCells off (b :: bs)) j =
      if off = j then b else Memory.read imageInit (imageCells (off + 1) bs) j := by
  simp only [imageCells]
  split
  · rename_i hb
    split
    · rename_i hj
      rw [Memory.read_of_rising_lt (rising_imageCells (off + 1) bs) (by omega), hb]
      rfl
    · rfl
  · rfl

/-- What the listed bytes of a sequence read as: the sequence from its first offset on, and zero elsewhere. -/
theorem read_imageCells (off : Nat) (bs : List Byte) (j : Nat) :
    Memory.read imageInit (imageCells off bs) j = if j < off then 0 else bs[j - off]?.getD 0 := by
  induction bs generalizing off with
  | nil => simp [imageCells, imageInit]
  | cons b bs ih =>
    rw [read_imageCells_cons, ih]
    rcases Nat.lt_trichotomy j off with h | rfl | h
    · rw [if_neg h.ne', if_pos (by omega), if_pos h]
    · simp
    · rw [if_neg h.ne, if_neg (by omega), if_neg (by omega), show j - off = (j - (off + 1)) + 1 by omega,
        List.getElem?_cons_succ]

theorem proper_imageCells {size off : Nat} {bs : List Byte} (h : off + bs.length ≤ size) :
    Memory.proper imageInit size (imageCells off bs) = true := by
  induction bs generalizing off with
  | nil => rfl
  | cons b bs ih =>
    rw [List.length_cons] at h
    simp only [imageCells]
    split
    · exact ih (by omega)
    · rename_i hb
      exact Memory.proper_cons.2 ⟨⟨hb, (by omega : off < size)⟩, ih (by omega)⟩

theorem Image.wf_ofBytes (bs : List Byte) : (Image.ofBytes bs).wf = true :=
  Bool.and_eq_true_iff.2 ⟨rising_imageCells 0 bs, proper_imageCells (Nat.zero_add _).le⟩

theorem Image.read_ofBytes (bs : List Byte) (j : Nat) : (Image.ofBytes bs).read j = bs[j]? := by
  simp only [Image.ofBytes, Image.read, read_imageCells, Nat.not_lt_zero, if_false, Nat.sub_zero]
  split
  · rename_i h; rw [List.getElem?_eq_getElem h]; rfl
  · rename_i h; rw [List.getElem?_eq_none (by omega)]

/-- Settles O52: both lists start with the same cell, and their tails read alike. -/
theorem canonicalMemoriesAreEqual : Obligations.CanonicalMemoriesAreEqual := by
  intro init size m n hm hn hread
  obtain ⟨hrm, hpm⟩ := Bool.and_eq_true_iff.1 hm
  obtain ⟨hrn, hpn⟩ := Bool.and_eq_true_iff.1 hn
  exact Memory.eq_of_read_eq hrm hrn hpm hpn hread

/-- Settles O29: the listed bytes read back the sequence and are in canonical form. -/
theorem imageHoldsSuppliedBytes : Obligations.ImageHoldsSuppliedBytes := fun bs =>
  ⟨rfl, Image.read_ofBytes bs, Image.wf_ofBytes bs⟩

end Sys2Proof.Machine

/-! Processor-side transactions (40_bus_decode.md): what the bus does range by range (R100), that the host's operations
are bus transactions (R115, R212), the mirrors (R57), and the controller ports (R105, R106). -/

namespace Sys2Proof.Machine

/-! ### The bus, range by range (R100) -/

section Ranges

variable {E : Env} {a : Addr} {v : Byte} {s : State}

theorem busRead_of_ram (h : a.toNat ≤ 0x1FFF) : busRead E a s = ramRead E a s := if_pos h

theorem busRead_of_ppuReg (h1 : 0x2000 ≤ a.toNat) (h2 : a.toNat ≤ 0x3FFF) : busRead E a s = ppuRegRead E a s := by
  rw [busRead, if_neg (by omega), if_pos h2]

theorem busRead_of_open (h1 : 0x4000 ≤ a.toNat) (h2 : a.toNat ≤ 0x401F)
    (h3 : a.toNat ≠ 0x4016 ∧ a.toNat ≠ 0x4017) : busRead E a s = openRead E s := by
  rw [busRead, if_neg (by omega), if_neg (by omega), if_neg (by omega : ¬ (a.toNat = 0x4016 ∨ a.toNat = 0x4017)),
    if_pos h2, ite_self]

theorem busRead_of_ctrl (h1 : 0x4016 ≤ a.toNat) (h2 : a.toNat ≤ 0x4017) :
    busRead E a s = ctrlRead E (BitVec.ofNat 1 (a.toNat % 2)) s := by
  have hp : portOf a = BitVec.ofNat 1 (a.toNat % 2) := by
    rw [← portOf_toNat, BitVec.ofNat_toNat, BitVec.setWidth_eq]
  rw [busRead, if_neg (by omega), if_neg (by omega), if_neg (by omega), if_pos (by omega), hp]

theorem busRead_of_window (h : 0x4020 ≤ a.toNat) : busRead E a s = windowRead E a s := by
  rw [busRead, if_neg (by omega), if_neg (by omega), if_neg (by omega), if_neg (by omega), if_neg (by omega)]

theorem busWrite_of_ram (h : a.toNat ≤ 0x1FFF) : busWrite E a v s = ramWrite E a v s := if_pos h

theorem busWrite_of_ppuReg (h1 : 0x2000 ≤ a.toNat) (h2 : a.toNat ≤ 0x3FFF) :
    busWrite E a v s = ppuRegWrite E a v s := by
  rw [busWrite, if_neg (by omega), if_pos h2]

theorem busWrite_of_oamDma (h1 : 0x4014 ≤ a.toNat) (h2 : a.toNat ≤ 0x4014) : busWrite E a v s = dmaTrigger v s := by
  rw [busWrite, if_neg (by omega), if_neg (by omega), if_pos (by omega)]

theorem busWrite_of_strobe (h1 : 0x4016 ≤ a.toNat) (h2 : a.toNat ≤ 0x4016) : busWrite E a v s = strobeWrite v s := by
  rw [busWrite, if_neg (by omega), if_neg (by omega), if_neg (by omega), if_pos (by omega)]

theorem busWrite_of_open (h1 : 0x4000 ≤ a.toNat) (h2 : a.toNat ≤ 0x401F)
    (h3 : a.toNat ≠ 0x4014 ∧ a.toNat ≠ 0x4016) : busWrite E a v s = openWrite v s := by
  rw [busWrite, if_neg (by omega), if_neg (by omega), if_neg h3.1, if_neg h3.2, if_pos h2]

theorem busWrite_of_window (h : 0x4020 ≤ a.toNat) : busWrite E a v s = windowWrite a v s := by
  rw [busWrite, if_neg (by omega), if_neg (by omega), if_neg (by omega), if_neg (by omega), if_neg (by omega)]

end Ranges

/-! ### The host's reads and writes -/

/-- The operation a range selects for a read performs the bus read of the address, and answers its byte (R212). -/
theorem exec_readOp (a : Addr) (s : State) : exec (readOp a) s = answer (busRead Config.env a s) := by
  have hopen (h1 : 0x4000 ≤ a.toNat) (h2 : a.toNat ≤ 0x401F) (h3 : a.toNat ≠ 0x4016 ∧ a.toNat ≠ 0x4017) :
      answer (openRead Config.env s) = answer (busRead Config.env a s) := by rw [busRead_of_open h1 h2 h3]
  have hwindow (h : 0x4020 ≤ a.toNat) :
      answer (windowRead Config.env a s) = answer (busRead Config.env a s) := by rw [busRead_of_window h]
  refine readOp_cases (P := fun i => exec i s = answer (busRead Config.env a s)) a
    ?ram ?ppuReg ?_ ?_ ?_ ?_ ?ctrl ?_ ?_ ?_ ?_ ?_ ?_ ?_ ?_ ?_ ?_ ?_
  case ram => intro h; rw [busRead_of_ram h]; rfl
  case ppuReg => intro h1 h2; rw [busRead_of_ppuReg h1 h2]; rfl
  case ctrl => intro h1 h2; rw [busRead_of_ctrl h1 h2]; rfl
  · exact fun h1 h2 => hopen (by omega) (by omega) (by omega)
  · exact fun h1 h2 => hopen (by omega) (by omega) (by omega)
  · exact fun h1 h2 => hopen (by omega) (by omega) (by omega)
  · exact fun h1 h2 => hopen (by omega) (by omega) (by omega)
  · exact fun h1 h2 => hopen (by omega) (by omega) (by omega)
  all_goals intros; exact hwindow (by omega)

/-- The operation a range selects for a write performs the bus write of the address (R212). -/
theorem exec_writeOp (a : Addr) (v : Byte) (s : State) :
    exec (writeOp a v) s = finish (busWrite Config.env a v s) := by
  have hopen (h1 : 0x4000 ≤ a.toNat) (h2 : a.toNat ≤ 0x401F) (h3 : a.toNat ≠ 0x4014 ∧ a.toNat ≠ 0x4016) :
      finish (openWrite v s) = finish (busWrite Config.env a v s) := by rw [busWrite_of_open h1 h2 h3]
  have hwindow (h : 0x4020 ≤ a.toNat) :
      finish (windowWrite a v s) = finish (busWrite Config.env a v s) := by rw [busWrite_of_window h]
  refine writeOp_cases (P := fun i => exec i s = finish (busWrite Config.env a v s)) a v
    ?ram ?ppuReg ?_ ?_ ?oamDma ?_ ?strobe ?_ ?_ ?_ ?_ ?_ ?_ ?_ ?_ ?_ ?_ ?_ ?_
  case ram => intro h; rw [busWrite_of_ram h]; rfl
  case ppuReg => intro h1 h2; rw [busWrite_of_ppuReg h1 h2]; rfl
  case oamDma => intro h1 h2; rw [busWrite_of_oamDma h1 h2]; rfl
  case strobe => intro h1 h2; rw [busWrite_of_strobe h1 h2]; rfl
  · exact fun h1 h2 => hopen (by omega) (by omega) (by omega)
  · exact fun h1 h2 => hopen (by omega) (by omega) (by omega)
  · exact fun h1 h2 => hopen (by omega) (by omega) (by omega)
  · exact fun h1 h2 => hopen (by omega) (by omega) (by omega)
  · exact fun h1 h2 => hopen (by omega) (by omega) (by omega)
  all_goals intros; exact hwindow (by omega)

/-- Settles O8: both sides are the bus transaction, answered or finished. -/
theorem hostTransactionIsBusTransaction : Obligations.HostTransactionIsBusTransaction := fun a v s =>
  ⟨exec_readOp a s, exec_writeOp a v s⟩

/-! ### Mirrors (R57) -/

/-- Flipping bit 11 of an address leaves the RAM index: the index is the address modulo `2 ^ 11`. -/
theorem ramIndex_flip (a : Addr) : ramIndex (a ^^^ 0x0800#16) = ramIndex a := by
  rw [ramIndex_eq, ramIndex_eq, BitVec.toNat_xor, show 2048 = 2 ^ 11 from rfl, Nat.xor_mod_two_pow]
  exact Nat.xor_zero _

theorem flip_le {a : Addr} (h : a.toNat ≤ 0x1FFF) : (a ^^^ 0x0800#16).toNat ≤ 0x1FFF := by
  rw [BitVec.toNat_xor]
  exact Nat.le_of_lt_succ (Nat.xor_lt_two_pow (n := 13) (by omega) (by decide))

/-- Settles O11: RAM is read and written at the index, which the two addresses share. -/
theorem ramMirrors : Obligations.RamMirrors := by
  intro a v s h
  have h' := flip_le h
  refine ⟨h', ?_, ?_⟩
  · rw [exec_readOp, exec_readOp, busRead_of_ram h, busRead_of_ram h', ramRead, ramRead, ramIndex_flip]
  · rw [exec_writeOp, exec_writeOp, busWrite_of_ram h, busWrite_of_ram h', ramWrite, ramWrite, ramIndex_flip]

/-- Settles O14: the Picture Unit's register is the address modulo 8, which the two addresses share. -/
theorem ppuRegMirrors : Obligations.PpuRegMirrors := by
  intro a v s h1 h2
  have hb : (BitVec.ofNat 16 (0x2000 + a.toNat % 8)).toNat = 0x2000 + a.toNat % 8 := by
    rw [BitVec.toNat_ofNat]; omega
  have hmod : (BitVec.ofNat 16 (0x2000 + a.toNat % 8)).toNat % 8 = a.toNat % 8 := by omega
  constructor
  · rw [exec_readOp, exec_readOp, busRead_of_ppuReg h1 h2, busRead_of_ppuReg (by omega) (by omega),
      ppuRegRead_eq, ppuRegRead_eq, hmod]
  · rw [exec_writeOp, exec_writeOp, busWrite_of_ppuReg h1 h2, busWrite_of_ppuReg (by omega) (by omega),
      ppuRegWrite_eq, ppuRegWrite_eq, hmod]

/-- Settles O15: both accesses are calls of the Picture Unit. -/
theorem ppuRegAccessKeepsCartridge : Obligations.PpuRegAccessKeepsCartridge := fun a v s =>
  ⟨⟨_, exec_rdPpuReg a s, runPpu_kept ..⟩, ⟨_, exec_wrPpuReg a v s, runPpu_kept ..⟩⟩

/-! ### Controller ports (R105, R106) -/

theorem exec_rdCtrl (p : PortNo) (s : State) : exec (.rdCtrl p) s = answer (ctrlRead Config.env p s) := rfl

theorem exec_wrStrobe (v : Byte) (s : State) : exec (.wrStrobe v) s = finish (strobeWrite v s) := rfl

theorem topBit_eq (b : Byte) : topBit b = if b.getLsbD 7 then 1 else 0 := by
  have h : b.extractLsb' 7 1 = BitVec.ofBool (b.getLsbD 7) := by
    ext i hi
    obtain rfl : i = 0 := by omega
    simp
  rw [topBit, h]
  cases b.getLsbD 7 <;> rfl

/-- Bit 7 of a byte is set from 128 on. -/
theorem getLsbD_seven (b : Byte) : b.getLsbD 7 = decide (128 ≤ b.toNat) :=
  b.msb_eq_getLsbD_last ▸ b.msb_eq_decide

/-- A shift doubles the register modulo 256 and adds the fill bit (R105). -/
theorem shiftIn_eq (b : Byte) (fill : Bool) : shiftIn b fill = BitVec.ofNat 8 (2 * b.toNat + fill.toNat) := by
  have h : ∀ (b : Byte) (fill : Bool), shiftIn b fill = b + b + BitVec.ofNat 8 fill.toNat := by decide
  apply BitVec.eq_of_toNat_eq
  rw [h, BitVec.toNat_add, BitVec.toNat_add, BitVec.toNat_ofNat, BitVec.toNat_ofNat]
  omega

/-- A shift moves every bit up by one; the fill bit enters at bit 0 (R105). -/
theorem getLsbD_shiftIn (b : Byte) (fill : Bool) {j : Nat} (hj : j < 8) :
    (shiftIn b fill).getLsbD j = if j = 0 then fill else b.getLsbD (j - 1) := by
  unfold shiftIn
  by_cases h0 : j = 0
  · simp [h0]
  · simp only [BitVec.getLsbD_or, BitVec.getLsbD_shiftLeft, BitVec.getLsbD_setWidth, BitVec.getLsbD_ofBool]
    simp [h0, hj]

/-- After `n` shifts the low `n` bits are fill bits, and the others have moved up by `n`. -/
theorem getLsbD_shiftIn_iterate (b : Byte) (fill : Bool) (n : Nat) {j : Nat} (hj : j < 8) :
    ((fun b => shiftIn b fill)^[n] b).getLsbD j = if j < n then fill else b.getLsbD (j - n) := by
  induction n generalizing j with
  | zero => rfl
  | succ n ih =>
    rw [Function.iterate_succ_apply', getLsbD_shiftIn _ _ hj]
    by_cases h0 : j = 0
    · rw [if_pos h0, if_pos (by omega)]
    · rw [if_neg h0, ih (by omega), Nat.sub_sub, Nat.add_comm 1 n]
      by_cases hn : j < n + 1
      · rw [if_pos (by omega), if_pos hn]
      · rw [if_neg (by omega), if_neg hn]

/-- A port read in numbers: bit 7 of the register, and the register doubled with the fill bit (R105). -/
theorem ctrlRead_eq (E : Env) (p : PortNo) (s : State) :
    ctrlRead E p s = (if 128 ≤ (ctrlLatch p s).toNat then 1 else 0,
      s.setShift (s.shift.set p (BitVec.ofNat 8 (2 * (ctrlLatch p s).toNat + E.ctrlFillBit.toNat)))) := by
  rw [ctrlRead, topBit_eq, getLsbD_seven, shiftIn_eq]
  simp only [decide_eq_true_eq]

theorem strobeOf_eq (v : Byte) : strobeOf v = decide (v.toNat % 2 = 1) :=
  Nat.testBit_zero v.toNat

/-- `n` reads of a port out of strobe mode shift its register `n` times (R105). -/
theorem execs_rdCtrl (p : PortNo) (n : Nat) {s : State} (h : s.strobe = false) :
    ∃ t, execs (List.replicate n (.rdCtrl p)) s = .next t ∧ t.strobe = false ∧
      t.shift.get p = (fun b => shiftIn b Config.ctrlFillBit)^[n] (s.shift.get p) := by
  induction n generalizing s with
  | zero => exact ⟨s, rfl, h, rfl⟩
  | succ n ih =>
    obtain ⟨t, hrun, hstrobe, hshift⟩ := ih (s := (ctrlRead Config.env p s).2.setReply _) h
    refine ⟨t, hrun, hstrobe, hshift.trans ?_⟩
    rw [Function.iterate_succ_apply]
    simp [ctrlRead, ctrlLatch, h, Config.env]

/-- Settles O16: the register is latched, bit 7 of it is the reply, and its shift is stored at the port. -/
theorem ctrlReadShiftsOneBit : Obligations.CtrlReadShiftsOneBit := by
  intro s
  rw [exec_rdCtrl, exec_rdCtrl, ctrlRead_eq, ctrlRead_eq, PortBytes.set_zero, PortBytes.set_one]
  exact ⟨rfl, rfl⟩

/-- Settles O17: the strobe value is bit 0 of the data. -/
theorem strobeWriteLatchesBothPorts : Obligations.StrobeWriteLatchesBothPorts := by
  intro v s
  rw [exec_wrStrobe, strobeWrite, strobeOf_eq]
  rfl

/-- Settles O18: the strobe writes latch the live byte and leave strobe mode, and each earlier read has shifted the
register once. -/
theorem controllerReadOut : Obligations.ControllerReadOut := by
  intro p n s
  obtain ⟨t, hrun, hstrobe, hshift⟩ :=
    execs_rdCtrl p n (s := (strobeWrite 0 ((strobeWrite 1 s).setReply .done)).setReply .done) rfl
  have hlatch : ctrlLatch p t = (fun b => shiftIn b Config.ctrlFillBit)^[n] (s.ctrl.get p) := by
    rw [ctrlLatch, hstrobe, if_neg (by decide), hshift]
    rfl
  refine ⟨t, _, hrun, exec_rdCtrl p t, congrArg Reply.value ?_⟩
  show topBit (ctrlLatch p t) = _
  rw [topBit_eq, hlatch, getLsbD_shiftIn_iterate _ _ _ (by decide)]
  by_cases hn : n < 8
  · rw [if_neg (by omega : ¬ 7 < n), if_pos hn]
  · rw [if_pos (by omega : 7 < n), if_neg hn]

/-! ### Unclaimed addresses and the trigger (R107 to R110) -/

theorem exec_of_mem_openReadOps {a : Addr} {i : Instr} (hi : i ∈ openReadOps a) (s : State) :
    exec i s = answer (openRead Config.env s) := by
  simp only [openReadOps, List.mem_cons, List.not_mem_nil, or_false] at hi
  obtain rfl | rfl | rfl | rfl | rfl := hi <;> rfl

theorem exec_of_mem_openWriteOps {a : Addr} {v : Byte} {i : Instr} (hi : i ∈ openWriteOps a v) (s : State) :
    exec i s = finish (openWrite v s) := by
  simp only [openWriteOps, List.mem_cons, List.not_mem_nil, or_false] at hi
  obtain rfl | rfl | rfl | rfl | rfl := hi <;> rfl

/-- Settles O19: the trigger is the only write of the operation. -/
theorem oamDmaWriteArmsTransfer : Obligations.OamDmaWriteArmsTransfer := fun _ _ => rfl

/-- Settles O20: each of the five performs the open read. -/
theorem unclaimedReadsReturnOpenBus : Obligations.UnclaimedReadsReturnOpenBus := fun _ s _ hi =>
  exec_of_mem_openReadOps hi s

/-- Settles O21: each of the five performs the open write, which discards the byte. -/
theorem unclaimedWritesAreDiscarded : Obligations.UnclaimedWritesAreDiscarded := fun _ _ s _ hi =>
  exec_of_mem_openWriteOps hi s

/-! ### The cartridge window and the picture-unit port (R111, R112, R172 to R178) -/

theorem exec_of_mem_windowReadOps {a : Addr} {i : Instr} (hi : i ∈ windowReadOps a) (s : State) :
    exec i s = answer (windowRead Config.env a s) := by
  simp only [windowReadOps, List.mem_cons, List.not_mem_nil, or_false] at hi
  obtain rfl | rfl | rfl | rfl | rfl | rfl | rfl | rfl | rfl | rfl := hi <;> rfl

theorem exec_of_mem_windowWriteOps {a : Addr} {v : Byte} {i : Instr} (hi : i ∈ windowWriteOps a v) (s : State) :
    exec i s = finish (windowWrite a v s) := by
  simp only [windowWriteOps, List.mem_cons, List.not_mem_nil, or_false] at hi
  obtain rfl | rfl | rfl | rfl | rfl | rfl | rfl | rfl | rfl | rfl := hi <;> rfl

theorem exec_prd (a : Addr) (s : State) : exec (.prd a) s = answer (slotPpuRead Config.env s.cart a, s) := rfl

theorem exec_pwr (a : Addr) (v : Byte) (s : State) :
    exec (.pwr a v) s = finish (s.setCart (slotPpuWrite Config.env s.cart a v)) := rfl

/-- Under R35 (d) the Mapper is variant 0 with the header's two counts: it is the only variant the table has (R191). -/
theorem Cartridge.wf.mapper_eq {c : Cartridge} (h : c.wf) :
    c.mapper = .mapper0 c.header.prgBanks c.header.chrBanks := by
  obtain ⟨-, -, -, ⟨v, -, hv⟩, -, -⟩ := h
  exact hv

/-- With a program bank, the byte of program storage at the masked address (R172, R192). -/
theorem Cartridge.wf.cpuRead {c : Cartridge} (h : c.wf) (E : Env) (a : Addr) :
    cartCpuRead E c a = Memory.read imageInit c.prg.cells
      (if c.header.prgBanks = 1 then a.toNat % 16384 else a.toNat % 32768) := by
  have hmapper := h.mapper_eq
  obtain ⟨hsize, -, hbank, -, -, -⟩ := h
  have hlt : prgOffset c.header.prgBanks a < c.prg.size := hsize ▸ prgOffset_lt _ a hbank
  rw [cartCpuRead, hmapper]
  simp only [Mapper.cpuRead, storageRead, Image.read, if_pos hlt, Option.getD_some]
  rw [prgOffset_eq]

/-- With a graphics bank, the byte of graphics storage at the masked address; open bus with none (R174, R194). -/
theorem Cartridge.wf.ppuRead {c : Cartridge} (h : c.wf) (E : Env) (a : Addr) :
    cartPpuRead E c a = if c.header.chrBanks = 0 then openBus E
      else Memory.read imageInit c.chr.cells (a.toNat % 8192) := by
  have hmapper := h.mapper_eq
  obtain ⟨-, hsize, -, -, -, -⟩ := h
  rw [cartPpuRead, hmapper]
  simp only [Mapper.ppuRead, storageRead, Image.read, hsize]
  by_cases hbank : c.header.chrBanks = 0
  · rw [if_pos hbank, hbank, if_neg (Nat.not_lt_of_le (Nat.zero_le _) : ¬ chrOffset a < chrLength 0)]
    rfl
  · rw [if_neg hbank, if_pos (chrOffset_lt _ a hbank), chrOffset_eq]
    rfl

/-- The graphics storage a port write leaves (R175, R195). -/
def chrAfter (E : Env) (c : Cartridge) (a : Addr) (v : Byte) : Image :=
  if E.m0PpuWriteAccept then c.chr.write (a.toNat % 8192) v else c.chr

theorem Cartridge.wf.ppuWrite {c : Cartridge} (h : c.wf) (E : Env) (a : Addr) (v : Byte) :
    cartPpuWrite E c a v = { c with chr := chrAfter E c a v } := by
  rw [cartPpuWrite, h.mapper_eq, chrAfter, Mapper.ppuWrite, chrOffset_eq]
  split <;> rfl

theorem size_chrAfter (E : Env) (c : Cartridge) (a : Addr) (v : Byte) : (chrAfter E c a v).size = c.chr.size := by
  unfold chrAfter
  split
  · exact Image.size_write ..
  · rfl

/-- Where variant 0 accepts the write, the byte at the masked address changes, and no other (R178, R195). -/
theorem Cartridge.wf.read_chrAfter {c : Cartridge} (h : c.wf) (hbank : c.header.chrBanks ≠ 0) (E : Env) (a : Addr)
    (v : Byte) (j : Nat) :
    (chrAfter E c a v).read j =
      if E.m0PpuWriteAccept = true ∧ j = a.toNat % 8192 then some v else c.chr.read j := by
  obtain ⟨-, hsize, -, -, -, -⟩ := h
  have hlt : a.toNat % 8192 < c.chr.size := by
    rw [hsize, ← chrOffset_eq]
    exact chrOffset_lt _ a hbank
  unfold chrAfter
  split
  · rename_i hacc
    simp only [Image.read_write, hlt, hacc, and_true, true_and]
  · rename_i hacc
    rw [if_neg (fun h => hacc h.1)]

/-- With no graphics bank there is no byte to write, accepted or not (D20). -/
theorem Cartridge.wf.chrAfter_noBank {c : Cartridge} (h : c.wf) (hbank : c.header.chrBanks = 0) (E : Env) (a : Addr)
    (v : Byte) : chrAfter E c a v = c.chr := by
  obtain ⟨-, hsize, -, -, -, -⟩ := h
  rw [hbank] at hsize
  have hlt : ¬ a.toNat % 8192 < c.chr.size := by rw [hsize]; exact Nat.not_lt_zero _
  rw [chrAfter, Image.write, if_neg hlt, ite_self]

/-- Settles O22: the window read is the slot's, whose byte `Cartridge.wf.cpuRead` gives. -/
theorem windowReadsProgramStorage : Obligations.WindowReadsProgramStorage := by
  intro a s hwf i hi
  rw [exec_of_mem_windowReadOps hi]
  refine congrArg (fun b => Host.Outcome.next (s.setReply (.value b))) (?_ : slotCpuRead Config.env s.cart a = _)
  cases hc : s.cart with
  | none => rfl
  | some c => exact (hwf c hc).cpuRead Config.env a

/-- Settles O23: no write of the window changes anything (`windowWrite_state`). -/
theorem windowWritesAreDiscarded : Obligations.WindowWritesAreDiscarded := by
  intro a v s i hi
  rw [exec_of_mem_windowWriteOps hi, windowWrite_state]
  rfl

/-- Settles O24: the two addresses have the same masked address. -/
theorem programStorageMirrors : Obligations.ProgramStorageMirrors := by
  intro a b s c hc hwf ha hb hmod
  have hmask : (if c.header.prgBanks = 1 then a.toNat % 16384 else a.toNat % 32768) =
      if c.header.prgBanks = 1 then b.toNat % 16384 else b.toNat % 32768 := by
    split at hmod
    · rename_i h1; rw [if_pos h1, if_pos h1, hmod]
    · rename_i h1; rw [if_neg h1, if_neg h1, hmod]
  rw [exec_readOp, exec_readOp, busRead_of_window ha, busRead_of_window hb, windowRead, windowRead, hc, slotCpuRead,
    slotCpuRead, hwf.cpuRead, hwf.cpuRead, hmask]

/-- Settles O26: the port read is the slot's, whose byte `Cartridge.wf.ppuRead` gives. -/
theorem portReadReturnsGraphicsByte : Obligations.PortReadReturnsGraphicsByte := by
  intro a s hwf
  refine congrArg (fun b => Host.Outcome.next (s.setReply (.value b))) (?_ : slotPpuRead Config.env s.cart a = _)
  cases hc : s.cart with
  | none => rfl
  | some c => exact (hwf c hc).ppuRead Config.env a

/-- Settles O27: the slot is left with the graphics storage `chrAfter`, which is the one before unless there is a
graphics bank and variant 0 accepts. -/
theorem portWriteStoresGraphicsByte : Obligations.PortWriteStoresGraphicsByte := by
  intro a v s
  have hslot {c : Cartridge} (hc : s.cart = some c) (hwf : c.wf) :
      exec (.pwr a v) s =
        .next { s with cart := some { c with chr := chrAfter Config.env c a v }, reply := .done } := by
    rw [exec_pwr, hc, slotPpuWrite, hwf.ppuWrite]
    rfl
  refine ⟨fun hc => ?_, fun c hc hwf hbank => ?_, fun c hc hwf hbank => ?_⟩
  · rw [exec_pwr, hc, slotPpuWrite, ← hc]
    rfl
  · rw [hslot hc hwf, hwf.chrAfter_noBank hbank, ← hc]
  · refine ⟨_, hslot hc hwf, size_chrAfter .., hwf.read_chrAfter hbank Config.env a v, fun hacc => ?_⟩
    exact if_neg (by rw [show Config.env.m0PpuWriteAccept = false from hacc]; decide)

/-! ### The agents' transactions (R115, R141, R144) -/

/-- Settles O53: the program's first transaction and what is left of it, by the definition. -/
theorem processorTransactionsAreBusTransactions : Obligations.ProcessorTransactionsAreBusTransactions := fun _ _ =>
  ⟨rfl, fun _ _ => rfl, fun _ _ _ => rfl, fun _ => rfl⟩

/-- Settles O54: as O53; what a write of object memory does to every byte of it is `Memory.read_write`. -/
theorem pictureUnitTransactionsAreSlotTransactions : Obligations.PictureUnitTransactionsAreSlotTransactions :=
  ⟨fun _ E _ u => ⟨fun _ _ => rfl, fun _ _ _ => rfl, fun _ => rfl,
      fun i v _ => ⟨Memory.write E.oamInit u.oam i.toNat v, rfl, fun j => Memory.read_write u.oam i.toNat j v⟩,
      fun _ _ _ _ => rfl⟩,
    fun a v s => ⟨exec_prd a s, exec_pwr a v s⟩⟩

/-- Settles O56: such a call is silent and, as every call, keeps the slot but for graphics bytes; the store that
follows it in `OamWrite` changes one byte. -/
theorem portOnlyCallsKeepObjectMemory : Obligations.PortOnlyCallsKeepObjectMemory :=
  ⟨fun _ _ => rfl, fun _ _ _ => rfl, fun _ => rfl, fun _ _ _ => rfl,
    fun E p cart u => ⟨runPpu_oamSilent E (asCall p) cart u (asCall_silent p), runPpu_kept E (asCall p) cart u⟩,
    fun E i v s j => by rw [oamWrite_oam, Memory.read_write]⟩

end Sys2Proof.Machine

/-! What a host operation and a step can do (44_host_ops.md, 60_exceptions.md): the checks of `INS` (R171), the effect
of each operation said once, and from it the frames (R114), the Cartridge (R180) and the invariant (R35). -/

namespace Sys2Proof.Machine

/-! ### INS (R171, R210) -/

/-- Checks 1 to 3 of a cartridge image (R171; D19, D21, D22). -/
def ImageOk (h : Header) (p : Payload) : Prop :=
  p.loaderOk = true ∧ h.prgBanks ≠ 0 ∧ p.prg.size = prgLength h.prgBanks ∧ p.chr.size = chrLength h.chrBanks

/-- An image that fails one of checks 1 to 3 is invalid, whatever its identifier (R231). -/
theorem checkImage_of_not_ok {h : Header} {p : Payload} (hok : ¬ ImageOk h p) :
    checkImage h p = .error (.cartInvalid h) := by
  unfold checkImage
  split_ifs with h1 h2 h3
  · rfl
  · rfl
  · rfl
  · rw [not_or, not_not, not_not] at h3
    exact absurd ⟨by simpa using h1, h2, h3⟩ hok

/-- An image that passes checks 1 to 3 is judged by the table (R191, R232). -/
theorem checkImage_of_ok {h : Header} {p : Payload} (hok : ImageOk h p) :
    checkImage h p =
      if h.mapperId = 0 then .ok .mapper0 else .error (.mapperUnsupported h.mapperId) := by
  obtain ⟨hloader, hbank, hprg, hchr⟩ := hok
  rw [checkImage, if_neg (by simp [hloader]), if_neg hbank, if_neg (by simp [hprg, hchr]), mapperTable]
  by_cases hm : h.mapperId = 0
  · rw [if_pos hm, if_pos hm]
  · rw [if_neg hm, if_neg hm]

theorem insertCart_of_error {h : Header} {s : State} {c : Condition} (hc : checkImage h s.payload = .error c) :
    insertCart h s = s.setReply (.raised c) := by
  rw [insertCart, hc]; rfl

theorem insertCart_of_valid {h : Header} {s : State} {v : MapperVariant} (hv : checkImage h s.payload = .ok v) :
    insertCart h s = (s.setCart (some (cartNew h v s.payload.prg s.payload.chr))).setReply .done := by
  rw [insertCart, hv]

/-- What the checks let in meets R35 (d), if the payload is in canonical form. -/
theorem cartNew_wf {h : Header} {p : Payload} {v : MapperVariant} (hv : checkImage h p = .ok v) (hp : p.wf) :
    (cartNew h v p.prg p.chr).wf := by
  have hok : ImageOk h p := by
    by_contra hno
    rw [checkImage_of_not_ok hno] at hv
    cases hv
  have htable : mapperTable h.mapperId = some v := by
    rw [checkImage_of_ok hok] at hv
    split at hv
    · rename_i hm; cases hv; exact if_pos hm
    · cases hv
  obtain ⟨-, hbank, hprg, hchr⟩ := hok
  exact ⟨hprg, hchr, hbank, ⟨v, htable, rfl⟩, hp⟩

/-- Checks 1 to 3 in numbers (R170). -/
theorem imageOk_iff (pb gb m : Byte) (v : Bool) (p : Payload) :
    ImageOk ⟨pb, gb, m, v⟩ p ↔ p.loaderOk = true ∧ pb.toNat ≠ 0 ∧ p.prg.size = pb.toNat * 16384 ∧
      p.chr.size = gb.toNat * 8192 := by
  have hpb : pb ≠ 0 ↔ pb.toNat ≠ 0 := by rw [Ne, ← BitVec.toNat_inj]; rfl
  rw [ImageOk, hpb]
  rfl

theorem exec_ins (pb gb m : Byte) (v : Bool) (s : State) :
    exec (.ins pb gb m v) s = .next (insertCart ⟨pb, gb, m, v⟩ s) := rfl

/-- Settles O43: the checks pass and the table gives variant 0, so the Cartridge is constructed and inserted. -/
theorem insertInstallsCartridge : Obligations.InsertInstallsCartridge := by
  intro pb gb m v s hloader hbank hprg hchr hm
  have hok := (imageOk_iff pb gb m v s.payload).2 ⟨hloader, by omega, hprg, hchr⟩
  rw [exec_ins, insertCart_of_valid ((checkImage_of_ok hok).trans (if_pos hm))]
  rfl

/-- Settles O44: one of checks 1 to 3 fails. -/
theorem invalidImageIsRefused : Obligations.InvalidImageIsRefused := by
  intro pb gb m v s hfail
  have hno : ¬ ImageOk ⟨pb, gb, m, v⟩ s.payload := by
    rw [imageOk_iff]
    rintro ⟨hloader, hbank, hprg, hchr⟩
    rcases hfail with h | h | h | h
    · rw [hloader] at h; cases h
    · exact hbank h
    · exact h hprg
    · exact h hchr
  rw [exec_ins, insertCart_of_error (checkImage_of_not_ok hno)]
  rfl

/-- Settles O45: checks 1 to 3 pass, and the table has no entry. -/
theorem unknownMapperIsRefused : Obligations.UnknownMapperIsRefused := by
  intro pb gb m v s hloader hbank hprg hchr hm
  have hok := (imageOk_iff pb gb m v s.payload).2 ⟨hloader, hbank, hprg, hchr⟩
  rw [exec_ins, insertCart_of_error ((checkImage_of_ok hok).trans (if_neg hm))]
  rfl

/-! ### The effect of each operation -/

/-- What an operation can do to the machine. An operation of the first constructor only answers the host. -/
inductive OpEffect (s : State) : Instr → State → Prop where
  | replies (i : Instr) (r : Reply) (hr : ∀ c, r ≠ .raised c) : OpEffect s i (s.setReply r)
  | ramWrite (a : Addr) (v : Byte) : OpEffect s (.wrRam a v) ((ramWrite Config.env a v s).setReply .done)
  | regRead (a : Addr) :
      OpEffect s (.rdPpuReg a) ((ppuRegRead Config.env a s).2.setReply (.value (ppuRegRead Config.env a s).1))
  | regWrite (a : Addr) (v : Byte) : OpEffect s (.wrPpuReg a v) ((ppuRegWrite Config.env a v s).setReply .done)
  | ctrlRead (p : PortNo) :
      OpEffect s (.rdCtrl p) ((ctrlRead Config.env p s).2.setReply (.value (ctrlRead Config.env p s).1))
  | oamDma (v : Byte) : OpEffect s (.wrOamDma v) ((dmaTrigger v s).setReply .done)
  | strobe (v : Byte) : OpEffect s (.wrStrobe v) ((strobeWrite v s).setReply .done)
  | portWrite (a : Addr) (v : Byte) :
      OpEffect s (.pwr a v) ((s.setCart (slotPpuWrite Config.env s.cart a v)).setReply .done)
  | clk : OpEffect s .clk ((clock Config.env s).setReply .done)
  | ctl (p : PortNo) (v : Byte) : OpEffect s (.ctl p v) ((s.setCtrl (s.ctrl.set p v)).setReply .done)
  | raises (pb gb m : Byte) (v : Bool) (c : Condition) : OpEffect s (.ins pb gb m v) (s.setReply (.raised c))
  | inserts (pb gb m : Byte) (v : Bool) (x : MapperVariant) (hx : checkImage ⟨pb, gb, m, v⟩ s.payload = .ok x) :
      OpEffect s (.ins pb gb m v)
        ((s.setCart (some (cartNew ⟨pb, gb, m, v⟩ x s.payload.prg s.payload.chr))).setReply .done)

/-- An operation answers what one of the effects leaves. -/
theorem exec_effect (i : Instr) (s : State) : ∃ t, exec i s = .next t ∧ OpEffect s i t := by
  have reads (b : Byte) : OpEffect s i (s.setReply (.value b)) := .replies i _ (fun _ => Reply.noConfusion)
  have discards : OpEffect s i (s.setReply .done) := .replies i _ (fun _ => Reply.noConfusion)
  cases i with
  | rdRam | rdOpen4000 | rdOpen4010 | rdOamDma | rdOpen4015 | rdOpen4018 | rdCart4020 | rdCart4040 | rdCart4080
  | rdCart4100 | rdCart4200 | rdCart4400 | rdCart4800 | rdCart5000 | rdCart6000 | rdCart8000 | prd =>
    exact ⟨_, rfl, reads _⟩
  | wrOpen4000 | wrOpen4010 | wrOpen4015 | wrOpen4017 | wrOpen4018 => exact ⟨_, rfl, discards⟩
  | wrCart4020 a v | wrCart4040 a v | wrCart4080 a v | wrCart4100 a v | wrCart4200 a v | wrCart4400 a v
  | wrCart4800 a v | wrCart5000 a v | wrCart6000 a v | wrCart8000 a v =>
    exact ⟨(windowWrite a v s).setReply .done, rfl, by rw [windowWrite_state]; exact discards⟩
  | wrRam a v => exact ⟨_, rfl, .ramWrite a v⟩
  | rdPpuReg a => exact ⟨_, rfl, .regRead a⟩
  | wrPpuReg a v => exact ⟨_, rfl, .regWrite a v⟩
  | rdCtrl p => exact ⟨_, rfl, .ctrlRead p⟩
  | wrOamDma v => exact ⟨_, rfl, .oamDma v⟩
  | wrStrobe v => exact ⟨_, rfl, .strobe v⟩
  | pwr a v => exact ⟨_, rfl, .portWrite a v⟩
  | clk => exact ⟨_, rfl, .clk⟩
  | ctl p v => exact ⟨_, rfl, .ctl p v⟩
  | ins pb gb m v =>
    refine ⟨_, rfl, ?_⟩
    cases hc : checkImage ⟨pb, gb, m, v⟩ s.payload with
    | error c => rw [insertCart_of_error hc]; exact .raises pb gb m v c
    | ok x => rw [insertCart_of_valid hc]; exact .inserts pb gb m v x hc

theorem effect_of_exec {i : Instr} {s t : State} (h : exec i s = .next t) : OpEffect s i t := by
  obtain ⟨u, hu, heffect⟩ := exec_effect i s
  obtain rfl : u = t := by rw [h] at hu; cases hu; rfl
  exact heffect

/-- Settles O46: some effect is answered, and the only one that reports a condition is of `INS`. -/
theorem everyOperationHasNextState : Obligations.EveryOperationHasNextState := by
  intro i s
  obtain ⟨t, ht, heffect⟩ := exec_effect i s
  refine ⟨t, ht, fun hins c => ?_⟩
  cases heffect with
  | replies _ r hr => exact hr c
  | raises pb gb m v => exact absurd rfl (hins pb gb m v)
  | inserts pb gb m v => exact absurd rfl (hins pb gb m v)
  | ramWrite | regRead | regWrite | ctrlRead | oamDma | strobe | portWrite | clk | ctl => exact Reply.noConfusion

/-- Settles O28: port transactions change bytes of graphics storage only, in a call of the Picture Unit, in `PWR` and
in the clock step; the other operations leave the slot alone. -/
theorem cartridgeKeptByEveryOtherOperation : Obligations.CartridgeKeptByEveryOtherOperation := by
  intro i s t hins h
  cases effect_of_exec h with
  | regRead | regWrite => exact runPpu_kept ..
  | portWrite => exact slotPpuWrite_kept ..
  | clk => exact clock_kept ..
  | inserts pb gb m v => exact absurd rfl (hins pb gb m v)
  | replies | ramWrite | ctrlRead | oamDma | strobe | ctl | raises => exact cartKept_refl _

/-- Settles O25: each effect but the clock step's writes the one kind of state its operation names. -/
theorem transactionsChangeOnlyWhatTheyName : Obligations.TransactionsChangeOnlyWhatTheyName := by
  intro i s t hclk h
  cases effect_of_exec h with
  | clk => exact absurd rfl hclk
  | replies | raises =>
    exact ⟨rfl, rfl, rfl, rfl, fun _ => rfl, fun _ => rfl, fun _ _ => rfl, fun _ => rfl, fun _ => rfl,
      fun _ _ => ⟨rfl, fun _ _ => rfl⟩⟩
  | ramWrite a v =>
    exact ⟨rfl, rfl, rfl, rfl, fun hi => absurd rfl (hi a v), fun _ => rfl, fun _ _ => rfl, fun _ => rfl, fun _ => rfl,
      fun _ _ => ⟨rfl, fun _ _ => rfl⟩⟩
  | oamDma v =>
    exact ⟨rfl, rfl, rfl, rfl, fun _ => rfl, fun hi => absurd rfl (hi v), fun _ _ => rfl, fun _ => rfl, fun _ => rfl,
      fun _ _ => ⟨rfl, fun _ _ => rfl⟩⟩
  | ctrlRead p =>
    exact ⟨rfl, rfl, rfl, rfl, fun _ => rfl, fun _ => rfl, fun hi _ => absurd rfl (hi p), fun _ => rfl, fun _ => rfl,
      fun _ _ => ⟨rfl, fun _ _ => rfl⟩⟩
  | strobe v =>
    exact ⟨rfl, rfl, rfl, rfl, fun _ => rfl, fun _ => rfl, fun _ hi => absurd rfl (hi v),
      fun hi => absurd rfl (hi v), fun _ => rfl, fun _ _ => ⟨rfl, fun _ _ => rfl⟩⟩
  | ctl p v =>
    exact ⟨rfl, rfl, rfl, rfl, fun _ => rfl, fun _ => rfl, fun _ _ => rfl, fun _ => rfl, fun hi => absurd rfl (hi p v),
      fun _ _ => ⟨rfl, fun _ _ => rfl⟩⟩
  | regRead a =>
    exact ⟨rfl, rfl, rfl, rfl, fun _ => rfl, fun _ => rfl, fun _ _ => rfl, fun _ => rfl, fun _ => rfl,
      fun hi _ => absurd rfl (hi a)⟩
  | regWrite a v =>
    exact ⟨rfl, rfl, rfl, rfl, fun _ => rfl, fun _ => rfl, fun _ _ => rfl, fun _ => rfl, fun _ => rfl,
      fun _ hi => absurd rfl (hi a v)⟩
  | portWrite a v =>
    exact ⟨rfl, rfl, rfl, rfl, fun _ => rfl, fun _ => rfl, fun _ _ => rfl, fun _ => rfl, fun _ => rfl,
      fun _ _ => ⟨rfl, fun hi _ => absurd rfl (hi a v)⟩⟩
  | inserts pb gb m v =>
    exact ⟨rfl, rfl, rfl, rfl, fun _ => rfl, fun _ => rfl, fun _ _ => rfl, fun _ => rfl, fun _ => rfl,
      fun _ _ => ⟨rfl, fun _ hi => absurd rfl (hi pb gb m v)⟩⟩

/-! ### The invariant (R35) -/

theorem State.Inv.setReply {E : Env} {s : State} (h : s.Inv E) (r : Reply) : (s.setReply r).Inv E :=
  ⟨h.ram, h.oam, h.cart, h.dma, h.payload, h.pending⟩

/-- Every operation keeps the invariant. -/
theorem State.Inv.exec {i : Instr} {s t : State} (h : s.Inv Config.env) (ht : Machine.exec i s = .next t) :
    t.Inv Config.env := by
  cases effect_of_exec ht with
  | replies | raises => exact h.setReply _
  | ramWrite a v =>
    exact ⟨Memory.wf_write v (ramIndex_lt a) h.ram, h.oam, h.cart, h.dma, h.payload, h.pending⟩
  | regRead | regWrite => exact (h.ppuCall _).setReply _
  | oamDma => exact ⟨h.ram, h.oam, h.cart, fun _ => ⟨rfl, rfl, rfl⟩, h.payload, h.pending⟩
  | portWrite => exact ⟨h.ram, h.oam, slotPpuWrite_wf h.cart, h.dma, h.payload, h.pending⟩
  | clk => exact h.clock.setReply _
  | inserts _ _ _ _ _ hx =>
    exact ⟨h.ram, h.oam, fun _ hc => Option.some.inj hc ▸ cartNew_wf hx h.payload, h.dma, h.payload, h.pending⟩
  | ctrlRead | strobe | ctl => exact ⟨h.ram, h.oam, h.cart, h.dma, h.payload, h.pending⟩

theorem step_of_pending_frameComplete {s : State} {rest : List HostOp} (h : s.pending = .frameComplete :: rest) :
    step s = execFrameComplete (s.setPending rest) := by
  simp only [step, fetch, h]

/-- Settles O49: what is taken off the list is in canonical form, and so is what stays on it; the operation, or the
read of the signal, keeps the invariant. -/
theorem stepKeepsInvariant : Obligations.StepKeepsInvariant := by
  intro s t h ht
  match hp : s.pending with
  | [] =>
    rw [step_of_pending_nil hp] at ht
    cases ht
    exact h
  | .frameComplete :: rest =>
    have hpending := h.pending
    rw [hp, List.forall_mem_cons] at hpending
    have h' : (s.setPending rest).Inv Config.env := ⟨h.ram, h.oam, h.cart, h.dma, h.payload, hpending.2⟩
    rw [step_of_pending_frameComplete hp] at ht
    cases ht
    exact h'.ppuFrameComplete.setReply _
  | .word w p :: rest =>
    have hpending := h.pending
    rw [hp, List.forall_mem_cons] at hpending
    have h' : ((s.setPending rest).setPayload p).Inv Config.env :=
      ⟨h.ram, h.oam, h.cart, h.dma, hpending.1, hpending.2⟩
    cases hd : decodeWord w with
    | ok i => exact h'.exec ((step_of_pending_word hp hd).symm.trans ht)
    | error e => rw [step_of_rejected_word hp hd] at ht; cases ht

/-- Settles O47: by the definition of reset. -/
theorem resetLeavesNothingActive : Obligations.ResetLeavesNothingActive :=
  ⟨rfl, rfl, rfl, rfl, rfl, rfl, fun _ => rfl⟩

/-- Settles O48: the arrays list nothing, there is no Cartridge, and the dummy flag is clear. -/
theorem resetMeetsInvariant : Obligations.ResetMeetsInvariant where
  ram := Memory.wf_nil
  oam := Memory.wf_nil
  cart _ h := nomatch h
  dma h := nomatch h
  payload := ⟨rfl, rfl⟩
  pending _ h := nomatch h

/-- Settles O50: the invariant holds at reset, what the host issues is in canonical form, and every step keeps it. -/
theorem reachableStatesMeetInvariant : Obligations.ReachableStatesMeetInvariant := by
  intro s hs
  induction hs with
  | reset => exact resetMeetsInvariant
  | issue s ops _ hops h =>
    exact ⟨h.ram, h.oam, h.cart, h.dma, h.payload, List.forall_mem_append.2 ⟨h.pending, hops⟩⟩
  | step s t _ hstep h => exact stepKeepsInvariant s t h hstep

/-! ### When a step stops (R88, R233) -/

theorem exists_decodeWord_error_iff (w : Nat) :
    (∃ e, decodeWord w = .error e) ↔ 2 ^ 28 ≤ w ∨ ReservedWord (BitVec.ofNat 28 w) := by
  by_cases hw : w < 2 ^ 28
  · rw [decodeWord_of_lt hw, exists_decode_error_iff]
    exact ⟨.inr, fun h => h.resolve_left (by omega)⟩
  · exact ⟨fun _ => .inl (by omega), fun _ => ⟨.tooWide, if_neg hw⟩⟩

/-- A step stops exactly when the decoder rejects the word issued first. -/
theorem not_goes_iff (s : State) :
    ¬ Goes s ↔ ∃ w p rest e, s.pending = .word w p :: rest ∧ decodeWord w = .error e := by
  constructor
  · intro h
    match hp : s.pending with
    | [] => exact absurd ⟨s, step_of_pending_nil hp⟩ h
    | .frameComplete :: rest => exact absurd ⟨_, step_of_pending_frameComplete hp⟩ h
    | .word w p :: rest =>
      cases hd : decodeWord w with
      | ok i =>
        obtain ⟨t, ht, -⟩ := exec_effect i ((s.setPending rest).setPayload p)
        exact absurd ⟨t, (step_of_pending_word hp hd).trans ht⟩ h
      | error e => exact ⟨w, p, rest, e, rfl, hd⟩
  · rintro ⟨w, p, rest, e, hp, hd⟩ ⟨t, ht⟩
    rw [step_of_rejected_word hp hd] at ht
    cases ht

/-- Settles O51: what stops a step is the decoder's rejection, whose reason the refusal gives. -/
theorem stepStopsOnlyOnReservedWords : Obligations.StepStopsOnlyOnReservedWords := by
  intro s
  constructor
  · simp only [not_goes_iff, exists_and_left, exists_decodeWord_error_iff]
  · intro h
    obtain ⟨w, p, rest, e, hp, hd⟩ := (not_goes_iff s).1 h
    exact ⟨e, step_of_rejected_word hp hd⟩

/-- Settles O57: the call leaves the slot and the Picture Unit, and it is a call with no writes of object memory. -/
theorem hostReadsFrameSignal : Obligations.HostReadsFrameSignal := fun _ _ hp =>
  ⟨step_of_pending_frameComplete hp, runPpu_kept .., runPpu_oamSilent _ _ _ _ (asCall_silent _)⟩

end Sys2Proof.Machine

/-! The slots of a clock step (41_clock_dma.md R142 to R151): the interrupt forward, the DMA engine's sub-steps, and
what a step keeps while the Processor is stalled. -/

namespace Sys2Proof.Machine

/-! ### Phases 1 and 2 (R141, R142) -/

/-- Phase 2 in full: the call's slot and Picture Unit, the condition taken, and the line asserted if there was one. -/
theorem forwardNmi_eq (E : Env) (s : State) :
    forwardNmi E s = { s with
      cart := (portCall E (E.ppuTakeNmi s.ppu) s).cart
      ppu := { (portCall E (E.ppuTakeNmi s.ppu) s).ppu with nmiPending := false }
      proc := { s.proc with nmiAsserts := s.proc.nmiAsserts + if s.ppu.nmiPending then 1 else 0 } } := by
  rw [← forwardNmi_proc E s]
  unfold forwardNmi
  dsimp only
  split <;> rfl

@[simp] theorem beforeSlot_ram (E : Env) (s : State) : (beforeSlot E s).ram = s.ram := by simp [beforeSlot]

@[simp] theorem beforeSlot_shift (E : Env) (s : State) : (beforeSlot E s).shift = s.shift := by simp [beforeSlot]

@[simp] theorem beforeSlot_strobe (E : Env) (s : State) : (beforeSlot E s).strobe = s.strobe := by simp [beforeSlot]

/-- Before the slot, of the Processor only the count of assertions has changed (R142, R238). -/
@[simp] theorem beforeSlot_proc (E : Env) (s : State) :
    (beforeSlot E s).proc =
      { s.proc with nmiAsserts := s.proc.nmiAsserts + if (ppuDot E s).ppu.nmiPending then 1 else 0 } := by
  simp [beforeSlot]

theorem beforeSlot_proc_inner (E : Env) (s : State) : (beforeSlot E s).proc.inner = s.proc.inner := by
  rw [beforeSlot_proc]

theorem beforeSlot_kept (E : Env) (s : State) : cartKept s.cart (beforeSlot E s).cart :=
  cartKept_trans (ppuDot_kept E s) (forwardNmi_kept E _)

/-! ### The three kinds of step (R143) -/

theorem slot_of_noSlot (E : Env) {s : State} (ht : s.tick % 3 ≠ 0) :
    slotPhase E (beforeSlot E s) = beforeSlot E s :=
  slotPhase_noSlot E (by rwa [beforeSlot_tick])

theorem slot_of_dma (E : Env) {s : State} (ht : s.tick % 3 = 0) (ha : s.dma.active = true) :
    slotPhase E (beforeSlot E s) = dmaSubStep E (beforeSlot E s) :=
  slotPhase_dma E (by rwa [beforeSlot_tick]) (by rwa [beforeSlot_dma])

theorem slot_of_proc (E : Env) {s : State} (ht : s.tick % 3 = 0) (ha : s.dma.active = false) :
    slotPhase E (beforeSlot E s) = runProc E (E.procStep (beforeSlot E s).proc) (beforeSlot E s) :=
  slotPhase_proc E (by rwa [beforeSlot_tick]) (by rwa [beforeSlot_dma])

/-- A clock step is what its slot leaves, with the tick advanced (R140). -/
theorem clock_eq (E : Env) (s : State) : clock E s = tickPhase (slotPhase E (beforeSlot E s)) := rfl

theorem exec_clk_noSlot {s : State} (ht : s.tick % 3 ≠ 0) :
    exec .clk s = .next { beforeSlot Config.env s with tick := s.tick + 1, reply := .done } := by
  rw [exec_clk, slot_of_noSlot _ ht]

theorem exec_clk_dma {s : State} (ht : s.tick % 3 = 0) (ha : s.dma.active = true) :
    exec .clk s =
      .next { dmaSubStep Config.env (beforeSlot Config.env s) with tick := s.tick + 1, reply := .done } := by
  rw [exec_clk, slot_of_dma _ ht ha]

theorem exec_clk_proc {s : State} (ht : s.tick % 3 = 0) (ha : s.dma.active = false) :
    exec .clk s =
      .next { runProc Config.env (Config.procStep (beforeSlot Config.env s).proc) (beforeSlot Config.env s) with
        tick := s.tick + 1, reply := .done } := by
  rw [exec_clk, slot_of_proc _ ht ha]
  rfl

/-- Settles O32: phase 2 is `forwardNmi_eq`; each kind of slot then runs from what it leaves, and only the Processor's
own slot writes the Processor. -/
theorem interruptForwardedOnce : Obligations.InterruptForwardedOnce := by
  intro s
  refine ⟨⟨forwardNmi_eq Config.env s, runPpu_kept .., portCall_oam Config.env _ s⟩,
    beforeSlot_proc Config.env s, forwardNmi_nmiPending .., fun ht ha => ?_, fun h => ?_, exec_clk_noSlot⟩
  · rw [exec_clk_proc ht ha, beforeSlot_proc]
    rfl
  · by_cases ht : s.tick % 3 = 0
    · exact ⟨_, exec_clk_dma ht (h.resolve_left (absurd ht)), (dmaSubStep_proc ..).trans (beforeSlot_proc ..)⟩
    · exact ⟨_, exec_clk_noSlot ht, beforeSlot_proc ..⟩

/-! ### The DMA engine's sub-steps (R145 to R147) -/

theorem dmaAddr_eq (page cursor : Byte) :
    dmaAddr page cursor = BitVec.ofNat 16 (page.toNat * 256 + cursor.toNat) := by
  rw [← dmaAddr_toNat, BitVec.ofNat_toNat, BitVec.setWidth_eq]

theorem dmaRead_eq (E : Env) (s : State) :
    dmaRead E s = { (busRead E (BitVec.ofNat 16 (s.dma.page.toNat * 256 + s.dma.cursor.toNat)) s).2 with
      dma := s.dma.stage (busRead E (BitVec.ofNat 16 (s.dma.page.toNat * 256 + s.dma.cursor.toNat)) s).1 } := by
  rw [← dmaAddr_eq, dmaRead, busRead_dma]
  rfl

/-- The cursor advances modulo 256 (R86, R147). -/
theorem cursorNext_eq (c : Byte) : cursorNext c = BitVec.ofNat 8 ((c.toNat + 1) % 256) := by
  apply BitVec.eq_of_toNat_eq
  rw [cursorNext, BitVec.toNat_add, BitVec.toNat_ofNat]
  exact (Nat.mod_mod _ _).symm

theorem cursorNext_eq_zero_iff (c : Byte) : cursorNext c = 0 ↔ c = 255 := by
  rw [cursorNext, ← BitVec.toNat_inj, ← BitVec.toNat_inj, BitVec.toNat_add]
  show (c.toNat + 1) % 256 = 0 ↔ c.toNat = 255
  have := c.isLt
  omega

/-- The write sub-step ends an active transfer exactly at cursor 255 (R147). -/
theorem Dma.advance_eq {d : Dma} (ha : d.active = true) :
    d.advance = { d with
      cursor := BitVec.ofNat 8 ((d.cursor.toNat + 1) % 256)
      phase := false
      active := decide (d.cursor.toNat ≠ 255) } := by
  have hactive : (if cursorNext d.cursor = 0 then false else d.active) = decide (d.cursor.toNat ≠ 255) := by
    by_cases hc : d.cursor = 255
    · rw [if_pos ((cursorNext_eq_zero_iff _).2 hc), hc]
      rfl
    · rw [if_neg (mt (cursorNext_eq_zero_iff _).1 hc), ha]
      exact (decide_eq_true (mt BitVec.eq_of_toNat_eq hc)).symm
  rw [Dma.advance, hactive, cursorNext_eq]

theorem dmaWrite_eq (E : Env) (s : State) :
    dmaWrite E s = { s with
      cart := (portCall E (E.ppuOamWrite s.dma.cursor s.dma.data s.ppu) s).cart
      ppu := { (portCall E (E.ppuOamWrite s.dma.cursor s.dma.data s.ppu) s).ppu with oam := (dmaWrite E s).ppu.oam }
      dma := s.dma.advance } := rfl

/-- Settles O34: the slot is the DMA engine's, and its sub-step the read. -/
theorem dmaReadSlot : Obligations.DmaReadSlot := by
  intro s ht ha hd hp
  rw [exec_clk_dma ht ha, dmaSubStep_read _ (by simpa using hd) (by simpa using hp), dmaRead_eq, beforeSlot_dma]
  rfl

/-- Settles O35: the slot is the DMA engine's, and its sub-step the write; of object memory the call inside `OamWrite`
writes nothing and the store after it one byte. -/
theorem dmaWriteSlot : Obligations.DmaWriteSlot := by
  intro s ht ha hd hp
  refine ⟨(dmaWrite Config.env (beforeSlot Config.env s)).ppu.oam, ?_, runPpu_kept .., fun j => ?_⟩
  · rw [exec_clk_dma ht ha, dmaSubStep_write _ (by simpa using hd) (by simpa using hp), ← Dma.advance_eq ha,
      dmaWrite_eq, beforeSlot_dma]
    rfl
  · rw [← beforeSlot_dma Config.env s]
    exact dmaWrite_oam Config.env (beforeSlot Config.env s) j

/-- What one sub-step does to the DMA state, the byte being what the bus answers (R145 to R147). -/
def Dma.subStep (d : Dma) (b : Byte) : Dma :=
  if d.dummy then d.endDummy else if d.phase then d.advance else d.stage b

theorem dmaSubStep_dma (E : Env) (s : State) :
    (dmaSubStep E s).dma = s.dma.subStep (busRead E (dmaAddr s.dma.page s.dma.cursor) s).1 := by
  unfold dmaSubStep Dma.subStep
  split_ifs
  · rfl
  · rfl
  · exact dmaRead_dma E s

@[simp] theorem Dma.subStep_page (d : Dma) (b : Byte) : (d.subStep b).page = d.page := by
  unfold Dma.subStep
  split_ifs <;> rfl

/-- Only the write sub-step at cursor 255 ends a transfer (R151). -/
theorem Dma.subStep_ends {d : Dma} {b : Byte} (ha : d.active = true) (h : (d.subStep b).active = false) :
    d.dummy = false ∧ d.phase = true ∧ d.cursor = 255 := by
  unfold Dma.subStep at h
  split_ifs at h with hd hp
  · exact absurd (ha.symm.trans h) (by decide)
  · refine ⟨by simpa using hd, hp, ?_⟩
    by_contra hc
    rw [Dma.advance, if_neg (mt (cursorNext_eq_zero_iff _).1 hc)] at h
    exact absurd (ha.symm.trans h) (by decide)
  · exact absurd (ha.symm.trans h) (by decide)

theorem clock_dma_of_noSlot (E : Env) {s : State} (ht : s.tick % 3 ≠ 0) : (clock E s).dma = s.dma := by
  rw [clock_eq, slot_of_noSlot E ht]
  exact beforeSlot_dma E s

/-- In a slot an active transfer has one sub-step. -/
theorem clock_dma_of_slot (E : Env) {s : State} (ht : s.tick % 3 = 0) (ha : s.dma.active = true) :
    ∃ b, (clock E s).dma = s.dma.subStep b := by
  refine ⟨(busRead E (dmaAddr s.dma.page s.dma.cursor) (beforeSlot E s)).1, ?_⟩
  rw [clock_eq, slot_of_dma E ht ha, tickPhase, State.setTick_dma, dmaSubStep_dma, beforeSlot_dma]

/-- While a transfer is active no clock step writes RAM: the Processor is stalled (R143). -/
theorem clock_ram_of_active (E : Env) {s : State} (ha : s.dma.active = true) : (clock E s).ram = s.ram := by
  rw [clock_eq, tickPhase, State.setTick_ram]
  by_cases ht : s.tick % 3 = 0
  · rw [slot_of_dma E ht ha, dmaSubStep_ram, beforeSlot_ram]
  · rw [slot_of_noSlot E ht, beforeSlot_ram]

/-- The dummy and the write sub-step make no processor-side transaction, so they shift no register. -/
theorem dmaSubStep_shift (E : Env) {s : State} (h : s.dma.dummy = true ∨ s.dma.phase = true) :
    (dmaSubStep E s).shift = s.shift := by
  by_cases hd : s.dma.dummy = true
  · rw [dmaSubStep_dummy E hd]; rfl
  · rw [dmaSubStep_write E (by simpa using hd) (h.resolve_left hd)]; rfl

/-- Settles O38: no effect but the clock step's clears `active`, and that one by its sub-step. -/
theorem onlyTheLastWriteEndsTransfer : Obligations.OnlyTheLastWriteEndsTransfer := by
  intro i s t h ha hend
  cases effect_of_exec h with
  | clk =>
    rw [State.setReply_dma] at hend
    by_cases ht : s.tick % 3 = 0
    · obtain ⟨b, hb⟩ := clock_dma_of_slot Config.env ht ha
      exact ⟨rfl, ht, Dma.subStep_ends ha (hb ▸ hend)⟩
    · rw [clock_dma_of_noSlot Config.env ht] at hend
      exact absurd (ha.symm.trans hend) (by decide)
  | oamDma => cases hend
  | replies | ramWrite | regRead | regWrite | ctrlRead | strobe | portWrite | ctl | raises | inserts =>
    exact absurd (ha.symm.trans hend) (by decide)

/-- Settles O39: with no slot the step is phases 1, 2 and 4, and during a transfer the slot is the DMA sub-step. -/
theorem processorStalledDuringTransfer : Obligations.ProcessorStalledDuringTransfer := by
  intro s
  refine ⟨fun ht => ⟨_, exec_clk_noSlot ht, beforeSlot_ram .., beforeSlot_dma .., beforeSlot_shift ..,
    beforeSlot_strobe .., beforeSlot_proc_inner ..⟩,
    fun ht ha => ⟨exec_clk_dma ht ha, _, exec_clk_dma ht ha, ?_, ?_, ?_, ?_, fun h => ?_⟩⟩
  · exact (dmaSubStep_ram ..).trans (beforeSlot_ram ..)
  · exact (dmaSubStep_strobe ..).trans (beforeSlot_strobe ..)
  · exact (congrArg Processor.inner (dmaSubStep_proc ..)).trans (beforeSlot_proc_inner ..)
  · exact (congrArg Dma.page (dmaSubStep_dma ..)).trans (by rw [Dma.subStep_page, beforeSlot_dma])
  · exact (dmaSubStep_shift _ (by simpa using h)).trans (beforeSlot_shift ..)

/-- Settles O40: `clock_kept` for the slot, and the frame lemmas of the clock step for the rest. -/
theorem clockStepKeepsHostState : Obligations.ClockStepKeepsHostState := fun s =>
  ⟨_, rfl, clock_ctrl Config.env s, clock_pending Config.env s, clock_payload Config.env s, clock_kept Config.env s⟩

end Sys2Proof.Machine

/-! A transfer as a whole (41_clock_dma.md R150, R152): what it has copied so far stays right, the slots it takes, and
the page it copies. -/

namespace Sys2Proof.Machine

/-! ### The source of a transfer: a RAM page or a page of the cartridge window (R152) -/

/-- The window reads program storage through the Mapper, and no operation but `INS` changes either (R172, R180). -/
theorem slotCpuRead_kept (E : Env) {x y : Option Cartridge} (h : cartKept x y) (a : Addr) :
    slotCpuRead E y a = slotCpuRead E x a := by
  match x, y, h with
  | none, none, _ => rfl
  | some c, some c', ⟨_, hprg, hmapper, _⟩ =>
    rw [slotCpuRead, slotCpuRead, cartCpuRead, cartCpuRead, hprg, hmapper]

/-- The addresses of such a page are RAM's or the window's. -/
theorem dmaAddr_quiet {page : Byte} (hq : page.toNat < 0x20 ∨ 0x41 ≤ page.toNat) (j : Byte) :
    (dmaAddr page j).toNat ≤ 0x1FFF ∨ 0x4020 ≤ (dmaAddr page j).toNat := by
  rw [dmaAddr_toNat]
  have := j.isLt
  omega

/-- A read of such a page has no side effect (R152). -/
theorem busRead_quiet (E : Env) (s : State) (hq : s.dma.page.toNat < 0x20 ∨ 0x41 ≤ s.dma.page.toNat) (j : Byte) :
    busRead E (dmaAddr s.dma.page j) s = (s.sourceByte E j, s) := by
  refine Prod.ext rfl ?_
  rcases dmaAddr_quiet hq j with h | h
  · rw [busRead_of_ram h]; rfl
  · rw [busRead_of_window h]; rfl

/-- The source is a function of RAM, of what stays of the Cartridge, and of the page. -/
theorem sourceByte_congr (E : Env) {s t : State} (hq : s.dma.page.toNat < 0x20 ∨ 0x41 ≤ s.dma.page.toNat)
    (hram : t.ram = s.ram) (hcart : cartKept s.cart t.cart) (hpage : t.dma.page = s.dma.page) :
    t.sourceByte E = s.sourceByte E := by
  funext j
  rw [State.sourceByte, State.sourceByte, hpage]
  rcases dmaAddr_quiet hq j with h | h
  · rw [busRead_of_ram h, busRead_of_ram h, ramRead, ramRead, hram]
  · rw [busRead_of_window h, busRead_of_window h]
    exact slotCpuRead_kept E hcart _

/-! ### What a transfer has copied so far (R146, R147) -/

/-- Object memory below the cursor holds the source, and between a read and a write so does the staging byte. -/
def Copied (E : Env) (src : Byte → Byte) (oam : Memory) (d : Dma) : Prop :=
  (∀ j : Byte, j.toNat < d.cursor.toNat → Memory.read E.oamInit oam j.toNat = src j) ∧
    (d.phase = true → d.data = src d.cursor)

/-- `State.CopyInv` is `Copied` for an active transfer from a RAM page or a page of the window. -/
theorem copyInv_iff (E : Env) (s : State) :
    s.CopyInv E ↔ (s.dma.active = true → s.dma.page.toNat < 0x20 ∨ 0x41 ≤ s.dma.page.toNat →
      Copied E (s.sourceByte E) s.ppu.oam s.dma) := Iff.rfl

section Copied

variable {E : Env} {src : Byte → Byte} {oam : Memory} {d : Dma}

theorem Copied.stage (h : Copied E src oam d) : Copied E src oam (d.stage (src d.cursor)) :=
  ⟨h.1, fun _ => rfl⟩

/-- Once the staging byte is written, object memory holds the source up to the cursor. -/
theorem Copied.read_write (h : Copied E src oam d) (hp : d.phase = true) {j : Byte}
    (hj : j.toNat ≤ d.cursor.toNat) :
    Memory.read E.oamInit (Memory.write E.oamInit oam d.cursor.toNat d.data) j.toNat = src j := by
  obtain ⟨hbelow, hstaged⟩ := h
  rw [Memory.read_write]
  split
  · rename_i he
    rw [hstaged hp, BitVec.eq_of_toNat_eq he]
  · exact hbelow j (by omega)

/-- The write sub-step, unless it is the last: the cursor moves past the byte written. -/
theorem Copied.advance (h : Copied E src oam d) (hp : d.phase = true) :
    Copied E src (Memory.write E.oamInit oam d.cursor.toNat d.data) d.advance := by
  refine ⟨fun j hj => h.read_write hp ?_, fun e => nomatch e⟩
  have hc : (cursorNext d.cursor).toNat ≤ d.cursor.toNat + 1 := by
    rw [cursorNext_eq, BitVec.toNat_ofNat]
    omega
  exact Nat.le_of_lt_succ (Nat.lt_of_lt_of_le hj hc)

end Copied

/-- Nothing has been copied of a transfer that has just been triggered. -/
theorem copyInv_of_start {E : Env} {s : State} (h : s.dma.active = true → s.dma.cursor = 0 ∧ s.dma.phase = false) :
    s.CopyInv E := by
  intro ha _
  obtain ⟨hcursor, hphase⟩ := h ha
  exact ⟨fun j hj => absurd hj (by rw [hcursor]; exact Nat.not_lt_zero _), fun hp => by simp [hphase] at hp⟩

theorem State.CopyInv.congr {E : Env} {s t : State} (h : s.CopyInv E) (hram : t.ram = s.ram)
    (hcart : cartKept s.cart t.cart) (hoam : t.ppu.oam = s.ppu.oam) (hdma : t.dma = s.dma) : t.CopyInv E := by
  rw [copyInv_iff, hdma, hoam]
  intro ha hq
  rw [sourceByte_congr E hq hram hcart (congrArg Dma.page hdma)]
  exact h ha hq

/-! ### The clock step keeps it -/

theorem beforeSlot_oam {E : Env} (hsilent : ∀ u, oamSilent (E.ppuTick u)) (s : State) :
    (beforeSlot E s).ppu.oam = s.ppu.oam :=
  (forwardNmi_oam E _).trans (runPpu_oamSilent E _ _ _ (hsilent s.ppu))

/-- A sub-step copies one byte further, or only marks the dummy as done. -/
theorem State.CopyInv.dmaSubStep {E : Env} {s : State} (h : s.CopyInv E) (ha : s.dma.active = true) :
    (Machine.dmaSubStep E s).CopyInv E := by
  rw [copyInv_iff, dmaSubStep_dma, Dma.subStep_page]
  intro _ hq
  have hcopied := (copyInv_iff E s).1 h ha hq
  rw [sourceByte_congr E hq (dmaSubStep_ram E s) (dmaSubStep_kept E s) (by rw [dmaSubStep_dma, Dma.subStep_page]),
    busRead_quiet E s hq, Dma.subStep]
  by_cases hd : s.dma.dummy = true
  · rw [if_pos hd, dmaSubStep_dummy E hd]
    exact hcopied
  · have hd' : s.dma.dummy = false := by simpa using hd
    by_cases hp : s.dma.phase = true
    · rw [if_neg hd, if_pos hp, dmaSubStep_write E hd' hp]
      have hoam : (dmaWrite E s).ppu.oam = Memory.write E.oamInit s.ppu.oam s.dma.cursor.toNat s.dma.data :=
        oamWrite_oam ..
      rw [hoam]
      exact hcopied.advance hp
    · rw [if_neg hd, if_neg hp, dmaSubStep_read E hd' (by simpa using hp)]
      have hoam : (dmaRead E s).ppu.oam = s.ppu.oam := by rw [dmaRead, busRead_quiet E s hq]; rfl
      rw [hoam]
      exact hcopied.stage

/-- A write leaves the DMA state alone or triggers a transfer (R107). -/
theorem busWrite_dma (E : Env) (a : Addr) (v : Byte) (s : State) :
    (busWrite E a v s).dma = s.dma ∨ (busWrite E a v s).dma = s.dma.trigger v := by
  unfold busWrite
  split_ifs
  · exact .inl rfl
  · exact .inl rfl
  · exact .inr rfl
  · exact .inl rfl
  · exact .inl rfl
  · exact .inl (by rw [windowWrite_state])

/-- The Processor can only start a transfer, so one that is active after its slot has copied nothing. -/
theorem runProc_start (E : Env) (p : ProcProg) {s : State}
    (h : s.dma.active = true → s.dma.cursor = 0 ∧ s.dma.phase = false) (ha : (runProc E p s).dma.active = true) :
    (runProc E p s).dma.cursor = 0 ∧ (runProc E p s).dma.phase = false := by
  induction p generalizing s with
  | read a k ih => exact ih _ (by rwa [busRead_dma]) ha
  | write a v k ih =>
    refine ih ?_ ha
    rcases busWrite_dma E a v s with hd | hd
    · rwa [hd]
    · rw [hd]; exact fun _ => ⟨rfl, rfl⟩
  | done p => exact h ha

theorem State.CopyInv.clock {E : Env} {s : State} (hsilent : ∀ u, oamSilent (E.ppuTick u)) (h : s.CopyInv E) :
    (Machine.clock E s).CopyInv E := by
  have h2 : (beforeSlot E s).CopyInv E :=
    h.congr (beforeSlot_ram E s) (beforeSlot_kept E s) (beforeSlot_oam hsilent s) (beforeSlot_dma E s)
  have h3 : (slotPhase E (beforeSlot E s)).CopyInv E := by
    by_cases ht : s.tick % 3 = 0
    · cases ha : s.dma.active with
      | true =>
        rw [slot_of_dma E ht ha]
        exact h2.dmaSubStep (by rwa [beforeSlot_dma])
      | false =>
        rw [slot_of_proc E ht ha]
        exact copyInv_of_start (runProc_start E _ fun ha' => by simp [ha] at ha')
    · rw [slot_of_noSlot E ht]
      exact h2
  exact h3.congr rfl (cartKept_refl _) rfl rfl

/-- Settles O55: phases 1 and 2 leave all it speaks of, the DMA engine's slot copies further, and the Processor's can
only start a transfer. -/
theorem clockStepKeepsCopyProgress : Obligations.ClockStepKeepsCopyProgress := fun _ _ hsilent h => h.clock hsilent

/-! ### The slots a transfer takes (R150) -/

/-- The DMA state of a triggered transfer from `page` that has had `m` of its 513 sub-steps (R150's numbering). -/
def Dma.after (page data : Byte) (m : Nat) : Dma where
  page := page
  cursor := BitVec.ofNat 8 ((m - 1) / 2)
  data := data
  active := decide (m < 513)
  dummy := decide (m = 0)
  phase := decide ((m - 1) % 2 = 1)

theorem State.Armed.dma_eq {s : State} (h : s.Armed) : s.dma = Dma.after s.dma.page s.dma.data 0 := by
  obtain ⟨hactive, hdummy, hcursor, hphase⟩ := h
  calc s.dma = ⟨s.dma.page, s.dma.cursor, s.dma.data, s.dma.active, s.dma.dummy, s.dma.phase⟩ := rfl
    _ = Dma.after s.dma.page s.dma.data 0 := by rw [hactive, hdummy, hcursor, hphase]; rfl

/-- A write sub-step advances the cursor, and ends the transfer if it is the 513th. -/
theorem Dma.advance_after {page data : Byte} {k : Nat} (hk : k < 512) (hp : k % 2 = 1) :
    (Dma.after page data (k + 1)).advance = Dma.after page data (k + 2) := by
  have hcursor : cursorNext (BitVec.ofNat 8 (k / 2)) = BitVec.ofNat 8 ((k + 1) / 2) := by
    rw [show (k + 1) / 2 = k / 2 + 1 by omega, BitVec.ofNat_add]
    rfl
  have hlast : BitVec.ofNat 8 ((k + 1) / 2) = 0 ↔ k = 511 := by
    rw [← BitVec.toNat_inj, BitVec.toNat_ofNat]
    show (k + 1) / 2 % 2 ^ 8 = 0 ↔ k = 511
    omega
  have hactive : (if BitVec.ofNat 8 ((k + 1) / 2) = 0 then false else decide (k + 1 < 513)) = decide (k + 2 < 513) := by
    by_cases hend : k = 511
    · rw [if_pos (hlast.2 hend), hend]; rfl
    · rw [if_neg (mt hlast.1 hend), decide_eq_true (by omega : k + 1 < 513), decide_eq_true (by omega : k + 2 < 513)]
  have hphase : false = decide ((k + 1) % 2 = 1) := (decide_eq_false (by omega)).symm
  simp only [Dma.advance, Dma.after, Nat.add_sub_cancel, hcursor, hactive, Dma.mk.injEq]
  exact ⟨trivial, rfl, trivial, trivial, rfl, hphase⟩

/-- A read sub-step leaves the cursor and turns to the write. -/
theorem Dma.stage_after (page data b : Byte) {k : Nat} (hk : k < 512) (hp : k % 2 = 0) :
    (Dma.after page data (k + 1)).stage b = Dma.after page b (k + 2) := by
  have hcursor : BitVec.ofNat 8 (k / 2) = BitVec.ofNat 8 ((k + 1) / 2) := by rw [show (k + 1) / 2 = k / 2 by omega]
  have hactive : decide (k + 1 < 513) = decide (k + 2 < 513) := by
    rw [decide_eq_true (by omega : k + 1 < 513), decide_eq_true (by omega : k + 2 < 513)]
  have hphase : true = decide ((k + 1) % 2 = 1) := (decide_eq_true (by omega)).symm
  simp only [Dma.stage, Dma.after, Nat.add_sub_cancel, hactive, Dma.mk.injEq]
  exact ⟨trivial, hcursor, trivial, trivial, rfl, hphase⟩

/-- The first sub-step is the dummy one; from then on reads and writes alternate (R145 to R147). -/
theorem Dma.subStep_after (page data b : Byte) {m : Nat} (hm : m < 513) :
    ∃ data', (Dma.after page data m).subStep b = Dma.after page data' (m + 1) := by
  match m with
  | 0 => exact ⟨data, rfl⟩
  | k + 1 =>
    have hphase : (Dma.after page data (k + 1)).phase = decide (k % 2 = 1) := rfl
    rw [Dma.subStep, if_neg (by rw [Dma.after]; exact Bool.false_ne_true), hphase]
    by_cases hp : k % 2 = 1
    · exact ⟨data, by rw [if_pos (decide_eq_true hp), Dma.advance_after (by omega) hp]⟩
    · exact ⟨b, by rw [if_neg (by simpa using hp), Dma.stage_after page data b (by omega) (by omega)]⟩

/-- The slots among the next `n` clock steps (R143). -/
def slotsIn (tick n : Nat) : Nat := (tick + n + 2) / 3 - (tick + 2) / 3

theorem slotsIn_zero (tick : Nat) : slotsIn tick 0 = 0 := Nat.sub_self _

theorem slotsIn_succ_of_slot {tick n : Nat} (h : (tick + n) % 3 = 0) : slotsIn tick (n + 1) = slotsIn tick n + 1 := by
  unfold slotsIn
  omega

theorem slotsIn_succ_of_noSlot {tick n : Nat} (h : (tick + n) % 3 ≠ 0) : slotsIn tick (n + 1) = slotsIn tick n := by
  unfold slotsIn
  omega

/-- Sub-step `k` of a transfer runs in the clock step `stepsToSlot + 3 * k` after the trigger (R150). -/
theorem slotsIn_subStep (tick k : Nat) : slotsIn tick (stepsToSlot tick + 3 * k + 1) = k + 1 := by
  unfold slotsIn stepsToSlot
  omega

/-- Sub-step 512 is the last. -/
theorem slotsIn_last (tick : Nat) : slotsIn tick (stepsToSlot tick + 1537) = 513 := slotsIn_subStep tick 512

theorem slotsIn_le_succ (tick n : Nat) : slotsIn tick n ≤ slotsIn tick (n + 1) := by
  unfold slotsIn
  omega

/-- Before the clock step of sub-step 512, at most 512 sub-steps have run. -/
theorem slotsIn_le {tick n : Nat} (h : n ≤ stepsToSlot tick + 1536) : slotsIn tick n ≤ 512 := by
  unfold stepsToSlot at h
  unfold slotsIn
  omega

theorem clocks_succ (E : Env) (n : Nat) (s : State) : clocks E (n + 1) s = clock E (clocks E n s) := by
  induction n generalizing s with
  | zero => rfl
  | succ n ih => exact ih (clock E s)

@[simp] theorem clocks_tick (E : Env) (n : Nat) (s : State) : (clocks E n s).tick = s.tick + n := by
  induction n with
  | zero => rfl
  | succ n ih => rw [clocks_succ, clock_tick, ih, Nat.add_assoc]

/-- A triggered transfer has had as many sub-steps as there were slots, up to its last. -/
theorem clocks_dma (E : Env) {s : State} (h : s.Armed) {n : Nat} (hn : slotsIn s.tick n ≤ 513) :
    ∃ data, (clocks E n s).dma = Dma.after s.dma.page data (slotsIn s.tick n) := by
  induction n with
  | zero => exact ⟨s.dma.data, by rw [slotsIn_zero]; exact h.dma_eq⟩
  | succ n ih =>
    by_cases ht : (s.tick + n) % 3 = 0
    · rw [slotsIn_succ_of_slot ht] at hn ⊢
      obtain ⟨data, hd⟩ := ih (by omega)
      have ha : (clocks E n s).dma.active = true := by rw [hd]; exact decide_eq_true hn
      obtain ⟨b, hb⟩ := clock_dma_of_slot E (by rwa [clocks_tick]) ha
      obtain ⟨data', hd'⟩ := Dma.subStep_after s.dma.page data b hn
      exact ⟨data', by rw [clocks_succ, hb, hd, hd']⟩
    · rw [slotsIn_succ_of_noSlot ht] at hn ⊢
      obtain ⟨data, hd⟩ := ih hn
      exact ⟨data, by rw [clocks_succ, clock_dma_of_noSlot E (by rwa [clocks_tick]), hd]⟩

/-! ### Nothing in a clock step reads the reply to the host -/

theorem busRead_setReply (E : Env) (a : Addr) (s : State) (r : Reply) :
    busRead E a (s.setReply r) = ((busRead E a s).1, (busRead E a s).2.setReply r) := by
  unfold busRead
  split_ifs <;> rfl

theorem busWrite_setReply (E : Env) (a : Addr) (v : Byte) (s : State) (r : Reply) :
    busWrite E a v (s.setReply r) = (busWrite E a v s).setReply r := by
  unfold busWrite
  split_ifs <;> rfl

theorem runProc_setReply (E : Env) (p : ProcProg) (s : State) (r : Reply) :
    runProc E p (s.setReply r) = (runProc E p s).setReply r := by
  induction p generalizing s with
  | read a k ih => rw [runProc, busRead_setReply, ih, runProc]
  | write a v k ih => rw [runProc, busWrite_setReply, ih, runProc]
  | done p => rfl

theorem dmaSubStep_setReply (E : Env) (s : State) (r : Reply) :
    dmaSubStep E (s.setReply r) = (dmaSubStep E s).setReply r := by
  by_cases hd : s.dma.dummy = true
  · rw [dmaSubStep_dummy E hd, dmaSubStep_dummy E (s := s.setReply r) hd]
    rfl
  · rw [Bool.not_eq_true] at hd
    by_cases hp : s.dma.phase = true
    · rw [dmaSubStep_write E hd hp, dmaSubStep_write E (s := s.setReply r) hd hp]
      rfl
    · rw [Bool.not_eq_true] at hp
      rw [dmaSubStep_read E hd hp, dmaSubStep_read E (s := s.setReply r) hd hp, dmaRead, State.setReply_dma,
        busRead_setReply]
      rfl

theorem slotPhase_setReply (E : Env) (s : State) (r : Reply) :
    slotPhase E (s.setReply r) = (slotPhase E s).setReply r := by
  by_cases ht : s.tick % 3 = 0
  · by_cases ha : s.dma.active = true
    · rw [slotPhase_dma E ht ha, slotPhase_dma E (s := s.setReply r) ht ha, dmaSubStep_setReply]
    · rw [Bool.not_eq_true] at ha
      rw [slotPhase_proc E ht ha, slotPhase_proc E (s := s.setReply r) ht ha, runProc_setReply, State.setReply_proc]
  · rw [slotPhase_noSlot E ht, slotPhase_noSlot E (s := s.setReply r) ht]

theorem beforeSlot_setReply (E : Env) (s : State) (r : Reply) :
    beforeSlot E (s.setReply r) = (beforeSlot E s).setReply r := by
  rw [beforeSlot, beforeSlot, forwardNmi_eq, forwardNmi_eq]
  rfl

theorem clock_setReply (E : Env) (s : State) (r : Reply) : clock E (s.setReply r) = (clock E s).setReply r := by
  rw [clock_eq, beforeSlot_setReply, slotPhase_setReply]
  rfl

theorem clocks_setReply (E : Env) (n : Nat) (s : State) (r : Reply) :
    clocks E n (s.setReply r) = (clocks E n s).setReply r := by
  induction n generalizing s with
  | zero => rfl
  | succ n ih => rw [clocks, clock_setReply, ih, clocks]

/-- `CLK n` (R91) is `n` clock steps, but for the replies. -/
theorem execs_clk (n : Nat) (s : State) :
    ∃ r, execs (List.replicate n .clk) s = .next ((clocks Config.env n s).setReply r) := by
  induction n generalizing s with
  | zero => exact ⟨s.reply, rfl⟩
  | succ n ih =>
    obtain ⟨r, hr⟩ := ih ((clock Config.env s).setReply .done)
    exact ⟨r, hr.trans (by rw [clocks_setReply]; rfl)⟩

/-- Settles O36: the DMA state after each of the clock steps is that of as many sub-steps as there were slots. -/
theorem transferTakes513Slots : Obligations.TransferTakes513Slots := by
  intro s hs
  refine ⟨fun n hn => ?_, fun k hk => ?_, ?_⟩
  · obtain ⟨r, hr⟩ := execs_clk n s
    have hle := slotsIn_le hn
    obtain ⟨data, hd⟩ := clocks_dma Config.env hs (hle.trans (by decide))
    refine ⟨_, hr, ?_⟩
    rw [State.setReply_dma, hd]
    exact ⟨decide_eq_true (by omega), rfl⟩
  · obtain ⟨r, hr⟩ := execs_clk (stepsToSlot s.tick + 3 * k + 1) s
    obtain ⟨data, hd⟩ := clocks_dma Config.env hs (n := stepsToSlot s.tick + 3 * k + 1)
      (by rw [slotsIn_subStep]; omega)
    refine ⟨_, hr, ?_⟩
    rw [State.setReply_dma, hd, slotsIn_subStep]
    refine ⟨rfl, ?_, rfl⟩
    show (BitVec.ofNat 8 (k / 2)).toNat = k / 2
    rw [BitVec.toNat_ofNat]
    omega
  · obtain ⟨r, hr⟩ := execs_clk (stepsToSlot s.tick + 1537) s
    obtain ⟨data, hd⟩ := clocks_dma Config.env hs (slotsIn_last s.tick).le
    refine ⟨_, hr, ?_, ?_⟩
    · rw [State.setReply_dma, hd, slotsIn_last, hs.dma_eq]
      rfl
    · rw [State.setReply_tick, clocks_tick, Nat.add_assoc]

/-! ### The page a transfer copies (R152) -/

theorem clocks_copyInv {E : Env} (hsilent : ∀ u, oamSilent (E.ppuTick u)) {s : State} (h : s.CopyInv E) (n : Nat) :
    (clocks E n s).CopyInv E := by
  induction n with
  | zero => exact h
  | succ n ih => rw [clocks_succ]; exact ih.clock hsilent

/-- During a transfer from such a page the source does not change: the Processor, stalled, writes no RAM. -/
theorem clocks_sourceByte (E : Env) {s : State} (h : s.Armed)
    (hq : s.dma.page.toNat < 0x20 ∨ 0x41 ≤ s.dma.page.toNat) {n : Nat} (hn : slotsIn s.tick n ≤ 512) :
    (clocks E n s).sourceByte E = s.sourceByte E := by
  induction n with
  | zero => rfl
  | succ n ih =>
    have hn' := (slotsIn_le_succ s.tick n).trans hn
    obtain ⟨data, hd⟩ := clocks_dma E h (hn'.trans (by decide))
    obtain ⟨data', hd'⟩ := clocks_dma E h (hn.trans (by decide))
    have ha : (clocks E n s).dma.active = true := by rw [hd]; exact decide_eq_true (by omega)
    have hpage : (clocks E n s).dma.page = s.dma.page := by rw [hd]; rfl
    have hpage' : (clocks E (n + 1) s).dma.page = (clocks E n s).dma.page := by rw [hpage, hd']; rfl
    rw [clocks_succ] at hpage' ⊢
    exact (sourceByte_congr E (by rwa [hpage]) (clock_ram_of_active E ha) (clock_kept E _) hpage').trans (ih hn')

/-- The step of the write sub-step stores the staging byte, whatever the Picture Unit does beside it. -/
theorem clock_oam_of_write {E : Env} (hsilent : ∀ u, oamSilent (E.ppuTick u)) {s : State} (ht : s.tick % 3 = 0)
    (ha : s.dma.active = true) (hd : s.dma.dummy = false) (hp : s.dma.phase = true) :
    (clock E s).ppu.oam = Memory.write E.oamInit s.ppu.oam s.dma.cursor.toNat s.dma.data := by
  rw [← beforeSlot_dma E s] at hd hp
  rw [clock_eq, slot_of_dma E ht ha, dmaSubStep_write E hd hp, ← beforeSlot_oam hsilent s, ← beforeSlot_dma E s]
  exact oamWrite_oam ..

/-- Before the last sub-step, object memory below 255 and the staging byte hold the source. -/
theorem clocks_beforeLast {E : Env} (hsilent : ∀ u, oamSilent (E.ppuTick u)) {s : State} (hs : s.Armed)
    (hq : s.dma.page.toNat < 0x20 ∨ 0x41 ≤ s.dma.page.toNat) {n : Nat} (hn : slotsIn s.tick n = 512) :
    ∃ data, (clocks E n s).dma = Dma.after s.dma.page data 512 ∧
      Copied E (s.sourceByte E) (clocks E n s).ppu.oam (clocks E n s).dma := by
  obtain ⟨data, hdma⟩ := clocks_dma E hs (hn.le.trans (by decide))
  rw [hn] at hdma
  have hstart : s.CopyInv E := by
    obtain ⟨-, -, hcursor, hphase⟩ := hs
    exact copyInv_of_start fun _ => ⟨hcursor, hphase⟩
  have hcopied := (copyInv_iff E _).1 (clocks_copyInv hsilent hstart n) (by rw [hdma]; rfl) (by rwa [hdma])
  rw [clocks_sourceByte E hs hq hn.le] at hcopied
  exact ⟨data, hdma, hcopied⟩

/-- Settles O37: before the last sub-step all but byte 255 has been copied, and the last writes that byte. -/
theorem transferCopiesPage : Obligations.TransferCopiesPage := by
  intro E s hsilent hs hq
  obtain ⟨_, hend⟩ := clocks_dma E hs (slotsIn_last s.tick).le
  refine ⟨by rw [hend, slotsIn_last]; rfl, fun j hj => ?_⟩
  have h512 : slotsIn s.tick (stepsToSlot s.tick + 1536) = 512 := by
    unfold slotsIn stepsToSlot
    omega
  have ht : (clocks E (stepsToSlot s.tick + 1536) s).tick % 3 = 0 := by
    rw [clocks_tick, stepsToSlot]
    omega
  obtain ⟨data, hdma, hcopied⟩ := clocks_beforeLast hsilent hs hq h512
  have hphase : (clocks E (stepsToSlot s.tick + 1536) s).dma.phase = true := by rw [hdma]; rfl
  have hbyte : (BitVec.ofNat 8 j).toNat = j := by rw [BitVec.toNat_ofNat]; omega
  have hle : (BitVec.ofNat 8 j).toNat ≤ (clocks E (stepsToSlot s.tick + 1536) s).dma.cursor.toNat := by
    rw [hbyte, hdma]
    exact Nat.le_of_lt_succ hj
  have hread := hcopied.read_write hphase hle
  rw [State.sourceByte, dmaAddr_eq, hbyte] at hread
  rw [← hread, ← clock_oam_of_write hsilent ht (by rw [hdma]; rfl) (by rw [hdma]; rfl) hphase, ← clocks_succ]

end Sys2Proof.Machine
